-- ==== Sys2Proof/Word.lean ====
section
/-! DEFINITION. Words and bytes of works memory, and the plainest conversions between a word and
the numbers the manual counts with (00_scope.md "Units"; R190: "Signed values are two's complement"). -/

namespace Sys2Proof

/-- A 32-bit word of works memory (R24). -/
abbrev Word := BitVec 32

/-- One byte of a word: the unit of a byte enable (R24). -/
abbrev Byte := BitVec 8

/-- A count as a word. -/
abbrev Word.ofCount (n : Nat) : Word := BitVec.ofNat 32 n

/-- A signed value as a word, in two's complement (R190). -/
abbrev Word.ofSigned (i : Int) : Word := BitVec.ofInt 32 i

end Sys2Proof
end

