-- ==== Sys2Proof/Syntax.lean ====
section
/-! DEFINITION. The commands of the part: one constructor of `Instr` for each row of
spec/opcode_table.json, with the operands that say which record, line or input the event is about
and what the outside world sends with it. A serial line is given as its receiver samples it, `true` for
high (R60, R158). -/

namespace Sys2Proof

/-- One word of a host WRITE with its four byte enables (R24). -/
structure WriteWord where
  value : Word
  enables : BitVec 4
deriving DecidableEq, Repr

/-- What a host transfer asks for (R24). -/
inductive HostOp where
  | read (length : Nat)
  | write (words : List WriteWord)
deriving DecidableEq, Repr

/-- A host transfer: consecutive words from a word address on (R24). -/
structure HostTransfer where
  addr : Nat
  op : HostOp
deriving DecidableEq, Repr

/-- What arrives at the memory port for an issued transfer (R25). The outside world decides whether
a WRITE answered DATA_ERROR reached the memory cells (log entry 9). -/
inductive MemAnswer where
  | done
  | dataError (stored : Bool)
  /-- A response of a transfer whose timeout was taken first: it is discarded. -/
  | late
deriving DecidableEq, Repr

/-- The way an encoder steps (R133). -/
inductive Direction where
  | east
  | west
deriving DecidableEq, Repr

/-- The four permits of a crane, and the four feedback inputs (R141, R145). -/
inductive Permit where
  | travelWest
  | travelEast
  | hoistLower
  | hoistRaise
deriving DecidableEq, Repr

/-- What a cab report carries besides its kind (section 8.4). -/
structure CabReport where
  tag : BitVec 8
  zone : BitVec 8
  piece : BitVec 16
  load : BitVec 16
deriving DecidableEq, Repr

/-- The alarm blocks: one in each bed, roster entry and crane record, one for each loop (section 9.4). -/
inductive AlarmRef where
  | bed (b : Fin 24)
  | probe (entry : Nat)
  | crane (c : Fin 2)
  | loop (l : Fin 4)
deriving DecidableEq, Repr

/-- The commands. A bed operand `b` is bed number b+1; a roster entry, a loop, a crane, a ring entry
and a move table entry are counted from 0 and a piece from 1, as 00_scope.md "Numbering" has them. -/
inductive Instr where
  | powerOnReset (straps : Fin 8)
  | directoryReadDone
  | loadReadsDone
  | loadingEnd
  | safe
  | restart
  | pathQuiet
  | worksTimeWriteBack
  | hostTransferArrives (t : HostTransfer)
  | takeTransfer
  | hostWrite (addr : Nat) (words : List WriteWord)
  | memoryResponse (answer : MemAnswer)
  | memoryTimeout (stored : Bool)
  | faultClear
  | ownReadDone
  | commitGroupAdmit
  | commitGroupComplete
  | prepare (b : Fin 24)
  | cast (b : Fin 24)
  | startCure (b : Fin 24)
  | stand (b : Fin 24)
  | hold (b : Fin 24)
  | resume (b : Fin 24)
  | endCure (b : Fin 24)
  | detension (b : Fin 24)
  | clear (b : Fin 24)
  | pollSlot (l : Fin 4)
  | pollSent (l : Fin 4)
  | replyWindowExpiry (l : Fin 4)
  | replyLimitExpiry (l : Fin 4)
  | probeReply (l : Fin 4) (samples : List Bool)
  | lowTimerExpiry (l : Fin 4)
  | highTimerExpiry (l : Fin 4)
  | breakRetryExpiry (l : Fin 4)
  | startSequenceDone (l : Fin 4)
  | enableOn (entry : Nat)
  | enableOff (entry : Nat)
  | controlStep
  | maturityStep
  | take (b : Fin 24)
  | gateEntryExpiry
  | swap
  | cancel
  | admissionRound (lowFire : Bool)
  | valveStep
  | scrap (piece : Nat)
  | free (piece : Nat)
  | yardMaturityStep
  | countEdge (c : Fin 2) (dir : Direction)
  | illegalTransition (c : Fin 2)
  | indexMarker (c : Fin 2) (edge : Option Direction)
  | feedbackChange (c : Fin 2) (p : Permit) (active : Bool)
  | offTimerExpiry (c : Fin 2) (p : Permit)
  | cabStop (c : Fin 2) (active : Bool)
  | yardStop (active : Bool)
  | blockTimerExpiry (c : Fin 2) (p : Permit)
  | arm (c : Fin 2)
  | intake (entry : Nat)
  | moveStart (c : Fin 2)
  | waitTimerExpiry (c : Fin 2)
  | travelTimerExpiry (c : Fin 2)
  | cabBlock (c : Fin 2) (samples : List Bool)
  | status (c : Fin 2) (r : CabReport)
  | arrived (c : Fin 2) (r : CabReport)
  | hooked (c : Fin 2) (r : CabReport)
  | lifted (c : Fin 2) (r : CabReport)
  | landed (c : Fin 2) (r : CabReport)
  | unhooked (c : Fin 2) (r : CabReport)
  | cannot (c : Fin 2) (r : CabReport)
  | quietTimerExpiry (c : Fin 2)
  | lostTimerExpiry (c : Fin 2)
  | cabReady (c : Fin 2) (active : Bool)
  | shifterFree (c : Fin 2)
  | moveResume (c : Fin 2)
  | abort (entry : Fin 16)
  | redirect (entry : Fin 16) (destination : Word)
  | noticeTail (tail : Word)
  | ack (block : AlarmRef)
deriving DecidableEq, Repr

end Sys2Proof
end

