-- ==== Sys2Proof/Decode.lean ====
section
/-! DEFINITION. No row of spec/opcode_table.json gives bits: the part is commanded by transfers and
field events, not by instruction words. So no word spells a command. -/

namespace Sys2Proof

/-- The command that a word spells by the table's bits: none, since no row has any. -/
def decodeTableWord (_nbits _w : Nat) : Option Instr := none

end Sys2Proof
end

