-- ==== Sys2Proof/Config.lean ====
section
/-! DEFINITION. What is fixed for the machine: the numbers of the manual that are no field of a
record. The manual leaves no value of this part open that a run depends on and that no command
carries (log entry 9 says which choices of the memory are operands), so there is no free value here. -/

namespace Sys2Proof.Config

/-- Words of works memory the ports address: "a word address from 0 to 4,194,303" (R24). -/
def memoryWords : Nat := 4194304

/-- Words a host transfer holds at most (R24). -/
def hostWordsMax : Nat := 8

/-- Words a burst holds at most (R25). -/
def burstWords : Nat := 16

/-- Commit groups in flight at most (R28, R38). -/
def groupSlots : Nat := 8

/-- Record spans of one commit group at most (R38). -/
def groupSpans : Nat := 6

/-- The step between two DIRSEL bases (R183). -/
def dirselStep : Nat := 524288

/-- The identity word of a directory (R184). -/
def formatCode : Nat := 0x4A580018

/-- The format revision (R184). -/
def formatRevision : Nat := 3

/-- The dispatch bay's destination code (R118). -/
def bayCode : Nat := 255

/-- Duty steps of full valve, and the steps of a valve cycle (R86, R106). -/
def fullDuty : Nat := 200

/-- The largest unsigned 32-bit figure, where maturity saturates (R89, R127). -/
def maxFigure : Nat := 4294967295

/-- Age in seconds up to which a reading qualifies (R69). -/
def readingAge : Nat := 10

/-- Short ticks of line-low time a RUNNING loop bears (R67), and of line-high time that
recovers a STUCK one (R68). -/
def lineTicks : Nat := 100

/-- Seconds between two breaks on a STUCK loop (R68). -/
def breakSeconds : Nat := 5

/-- Short ticks a permit may be off with its feedback active (R145: 2 s). -/
def disobeyTicks : Nat := 2000

/-- Short ticks at which an off timer stops (R142: 10 s). -/
def offTimerStop : Nat := 10000

/-- Short ticks in one unit of dead time (section 7.1: 5 is 0.5 s). -/
def deadTimeTicks : Nat := 100

/-- Short ticks without a valid block that lose a cab link (R159: 3 s). -/
def quietTicks : Nat := 3000

/-- Seconds of lost link that end a suspended move without load (R159). -/
def lostSeconds : Nat := 30

/-- Counts a slip check allows (R134). -/
def slipCounts : Int := 8

/-- Samples a receiver takes of each bit (R60, R158). -/
def samplesPerBit : Nat := 16

/-- Bits of a probe loop character and of a cab link character (R59, R158). -/
def loopBits : Nat := 11
def cabBits : Nat := 10

/-- Bit times of silence that a block outlasts on a probe loop (R62) and on a cab link (R158). -/
def loopGap : Nat := 22
def cabGap : Nat := 30

/-- Characters of a reply (R62) and of a cab block (R158). -/
def replyChars : Nat := 6
def blockChars : Nat := 8

/-- The command character READ (R191). -/
def readCommand : Nat := 1

/-- Bit times of a break and of an idle character (R59). -/
def breakBits : Nat := 14
def idleBits : Nat := 11

/-- Blocks a report list holds (R158). -/
def reportsMax : Nat := 4

/-- Moves a crane queue holds (R155). -/
def queueMax : Nat := 8

/-- Claims a claim list holds (R119). -/
def claimsMax : Nat := 8

/-- Notices a notice group carries (R176). -/
def noticesPerGroup : Nat := 8

/-- Short rounds after which STARVED is posted (R107). -/
def starvedRounds : Nat := 30

end Sys2Proof.Config
end

