-- ==== Sys2Proof/Machine/Codes.lean ====
section
/-! DEFINITION. The names the manual writes in capitals, each with the code R190 gives it: "A field
that holds a code takes its codes numbered from 0 in the order this manual first lists them for that
field. Where NONE is one of the codes, NONE is 0 and the others follow from 1." -/

namespace Sys2Proof.Machine

/-- Results, reasons, refusal reasons and reasons in details share one numbering (R190). -/
inductive Code where
  | none | accepted | memory | state | busy | range | partialWord | loading
  | noRoom | inUse | notSeen | order | swapPending | stopActive | faultLatched | loadOnHook
  | tail | noProfile | badSegment | probes | taken | discarded | count | duration
  | beds | cancelled | badOrder | duplicate | badCrane | badDest | tableFull | queueFull
  | noPiece | pieceBusy | notLiftable | notOnTop | held | notReady | slotClosed | length
  | claimsFull | replanConflict | armed | host | reserveTimeout | travelTimeout | linkLost | cabRefused
  | pieceHeld | replanned | restart | clean | noDirectory | badRevision | overlap | badRecord
  | craneFault | outOfPhase | cabCannot | safeEntry
deriving DecidableEq, Repr

/-- The code R190 gives each Code. -/
def Code.toNat : Code → Nat
  | .none => 0
  | .accepted => 1
  | .memory => 2
  | .state => 3
  | .busy => 4
  | .range => 5
  | .partialWord => 6
  | .loading => 7
  | .noRoom => 8
  | .inUse => 9
  | .notSeen => 10
  | .order => 11
  | .swapPending => 12
  | .stopActive => 13
  | .faultLatched => 14
  | .loadOnHook => 15
  | .tail => 16
  | .noProfile => 17
  | .badSegment => 18
  | .probes => 19
  | .taken => 20
  | .discarded => 21
  | .count => 22
  | .duration => 23
  | .beds => 24
  | .cancelled => 25
  | .badOrder => 26
  | .duplicate => 27
  | .badCrane => 28
  | .badDest => 29
  | .tableFull => 30
  | .queueFull => 31
  | .noPiece => 32
  | .pieceBusy => 33
  | .notLiftable => 34
  | .notOnTop => 35
  | .held => 36
  | .notReady => 37
  | .slotClosed => 38
  | .length => 39
  | .claimsFull => 40
  | .replanConflict => 41
  | .armed => 42
  | .host => 43
  | .reserveTimeout => 44
  | .travelTimeout => 45
  | .linkLost => 46
  | .cabRefused => 47
  | .pieceHeld => 48
  | .replanned => 49
  | .restart => 50
  | .clean => 51
  | .noDirectory => 52
  | .badRevision => 53
  | .overlap => 54
  | .badRecord => 55
  | .craneFault => 56
  | .outOfPhase => 57
  | .cabCannot => 58
  | .safeEntry => 59

/-- Bed states (section 1.1). -/
inductive BedState where
  | empty | prepared | cast | curing | standing | releasable | detensioned
deriving DecidableEq, Repr

/-- The code R190 gives each BedState. -/
def BedState.toNat : BedState → Nat
  | .empty => 0
  | .prepared => 1
  | .cast => 2
  | .curing => 3
  | .standing => 4
  | .releasable => 5
  | .detensioned => 6

/-- The BedState a code stands for, if it is one. -/
def BedState.ofNat? : Nat → Option BedState
  | 0 => some .empty
  | 1 => some .prepared
  | 2 => some .cast
  | 3 => some .curing
  | 4 => some .standing
  | 5 => some .releasable
  | 6 => some .detensioned
  | _ => none

/-- Bed request codes other than NONE (section 1.4). -/
inductive BedCode where
  | prepare | cast | startCure | stand | hold | resume | endCure | detension
  | clear
deriving DecidableEq, Repr

/-- The code R190 gives each BedCode. -/
def BedCode.toNat : BedCode → Nat
  | .prepare => 1
  | .cast => 2
  | .startCure => 3
  | .stand => 4
  | .hold => 5
  | .resume => 6
  | .endCure => 7
  | .detension => 8
  | .clear => 9

/-- The BedCode a code stands for, if it is one. -/
def BedCode.ofNat? : Nat → Option BedCode
  | 1 => some .prepare
  | 2 => some .cast
  | 3 => some .startCure
  | 4 => some .stand
  | 5 => some .hold
  | 6 => some .resume
  | 7 => some .endCure
  | 8 => some .detension
  | 9 => some .clear
  | _ => none

/-- Curing sub-states (R190). -/
inductive SubState where
  | running | held | blind | overheat
deriving DecidableEq, Repr

/-- The code R190 gives each SubState. -/
def SubState.toNat : SubState → Nat
  | .running => 0
  | .held => 1
  | .blind => 2
  | .overheat => 3

/-- The SubState a code stands for, if it is one. -/
def SubState.ofNat? : Nat → Option SubState
  | 0 => some .running
  | 1 => some .held
  | 2 => some .blind
  | 3 => some .overheat
  | _ => none

/-- Segment phases (R73). -/
inductive Phase where
  | moving | holding
deriving DecidableEq, Repr

/-- The code R190 gives each Phase. -/
def Phase.toNat : Phase → Nat
  | .moving => 0
  | .holding => 1

/-- The Phase a code stands for, if it is one. -/
def Phase.ofNat? : Nat → Option Phase
  | 0 => some .moving
  | 1 => some .holding
  | _ => none

/-- Probe states (section 3.1). -/
inductive ProbeState where
  | offline | suspect | online | lost | barred
deriving DecidableEq, Repr

/-- The code R190 gives each ProbeState. -/
def ProbeState.toNat : ProbeState → Nat
  | .offline => 0
  | .suspect => 1
  | .online => 2
  | .lost => 3
  | .barred => 4

/-- The ProbeState a code stands for, if it is one. -/
def ProbeState.ofNat? : Nat → Option ProbeState
  | 0 => some .offline
  | 1 => some .suspect
  | 2 => some .online
  | 3 => some .lost
  | 4 => some .barred
  | _ => none

/-- Last poll outcomes (R190). -/
inductive PollOutcome where
  | none | framing | partialReply | collision | noise | echo | check | range
  | good | timeout | stuck
deriving DecidableEq, Repr

/-- The code R190 gives each PollOutcome. -/
def PollOutcome.toNat : PollOutcome → Nat
  | .none => 0
  | .framing => 1
  | .partialReply => 2
  | .collision => 3
  | .noise => 4
  | .echo => 5
  | .check => 6
  | .range => 7
  | .good => 8
  | .timeout => 9
  | .stuck => 10

/-- Piece request codes other than NONE (section 6.1). -/
inductive PieceCode where
  | scrap | free
deriving DecidableEq, Repr

/-- The code R190 gives each PieceCode. -/
def PieceCode.toNat : PieceCode → Nat
  | .scrap => 1
  | .free => 2

/-- The PieceCode a code stands for, if it is one. -/
def PieceCode.ofNat? : Nat → Option PieceCode
  | 1 => some .scrap
  | 2 => some .free
  | _ => none

/-- Claim operations (R190: PICK 0, PLACE 1). -/
inductive ClaimOp where
  | pick | place
deriving DecidableEq, Repr

/-- The code R190 gives each ClaimOp. -/
def ClaimOp.toNat : ClaimOp → Nat
  | .pick => 0
  | .place => 1

/-- The ClaimOp a code stands for, if it is one. -/
def ClaimOp.ofNat? : Nat → Option ClaimOp
  | 0 => some .pick
  | 1 => some .place
  | _ => none

/-- Move kinds, in the order section 8.1 lists them. -/
inductive MoveKind where
  | lift | restack | dispatch | park
deriving DecidableEq, Repr

/-- The code R190 gives each MoveKind. -/
def MoveKind.toNat : MoveKind → Nat
  | .lift => 0
  | .restack => 1
  | .dispatch => 2
  | .park => 3

/-- The MoveKind a code stands for, if it is one. -/
def MoveKind.ofNat? : Nat → Option MoveKind
  | 0 => some .lift
  | 1 => some .restack
  | 2 => some .dispatch
  | 3 => some .park
  | _ => none

/-- Move states (section 8.1). -/
inductive MoveState where
  | empty | queued | reserving | toPick | atPick | hooked | toPlace | atPlace
  | landed | toPark | suspended | done | aborted
deriving DecidableEq, Repr

/-- The code R190 gives each MoveState. -/
def MoveState.toNat : MoveState → Nat
  | .empty => 0
  | .queued => 1
  | .reserving => 2
  | .toPick => 3
  | .atPick => 4
  | .hooked => 5
  | .toPlace => 6
  | .atPlace => 7
  | .landed => 8
  | .toPark => 9
  | .suspended => 10
  | .done => 11
  | .aborted => 12

/-- The MoveState a code stands for, if it is one. -/
def MoveState.ofNat? : Nat → Option MoveState
  | 0 => some .empty
  | 1 => some .queued
  | 2 => some .reserving
  | 3 => some .toPick
  | 4 => some .atPick
  | 5 => some .hooked
  | 6 => some .toPlace
  | 7 => some .atPlace
  | 8 => some .landed
  | 9 => some .toPark
  | 10 => some .suspended
  | 11 => some .done
  | 12 => some .aborted
  | _ => none

/-- Move control request codes other than NONE (section 8.1). -/
inductive CtrlCode where
  | abort | redirect
deriving DecidableEq, Repr

/-- The code R190 gives each CtrlCode. -/
def CtrlCode.toNat : CtrlCode → Nat
  | .abort => 1
  | .redirect => 2

/-- The CtrlCode a code stands for, if it is one. -/
def CtrlCode.ofNat? : Nat → Option CtrlCode
  | 1 => some .abort
  | 2 => some .redirect
  | _ => none

/-- Cab link states (R151). -/
inductive LinkState where
  | quiet | up | lost
deriving DecidableEq, Repr

/-- The code R190 gives each LinkState. -/
def LinkState.toNat : LinkState → Nat
  | .quiet => 0
  | .up => 1
  | .lost => 2

/-- Cab report kinds (R191). -/
inductive ReportKind where
  | status | arrived | hooked | lifted | landed | unhooked | cannot
deriving DecidableEq, Repr

/-- The code R190 gives each ReportKind. -/
def ReportKind.toNat : ReportKind → Nat
  | .status => 16
  | .arrived => 17
  | .hooked => 18
  | .lifted => 19
  | .landed => 20
  | .unhooked => 21
  | .cannot => 22

/-- The ReportKind a code stands for, if it is one. -/
def ReportKind.ofNat? : Nat → Option ReportKind
  | 16 => some .status
  | 17 => some .arrived
  | 18 => some .hooked
  | 19 => some .lifted
  | 20 => some .landed
  | 21 => some .unhooked
  | 22 => some .cannot
  | _ => none

/-- Instruction kinds to a cab (R191). -/
inductive InstrKind where
  | goto | hold | cancel
deriving DecidableEq, Repr

/-- The code R190 gives each InstrKind. -/
def InstrKind.toNat : InstrKind → Nat
  | .goto => 1
  | .hold => 2
  | .cancel => 3

/-- Purposes of a GOTO (R191). -/
inductive Purpose where
  | none | pick | place | park
deriving DecidableEq, Repr

/-- The code R190 gives each Purpose. -/
def Purpose.toNat : Purpose → Nat
  | .none => 0
  | .pick => 1
  | .place => 2
  | .park => 3

/-- The lifecycle (R183). -/
inductive Lifecycle where
  | loading | running | safe
deriving DecidableEq, Repr

/-- The code R190 gives each Lifecycle. -/
def Lifecycle.toNat : Lifecycle → Nat
  | .loading => 0
  | .running => 1
  | .safe => 2

/-- Safe causes (R183). -/
inductive SafeCause where
  | none | load | request | memory
deriving DecidableEq, Repr

/-- The code R190 gives each SafeCause. -/
def SafeCause.toNat : SafeCause → Nat
  | .none => 0
  | .load => 1
  | .request => 2
  | .memory => 3

/-- Alarm states, in the order R179 lists them. -/
inductive AlarmState where
  | clear | raised | seen | acked
deriving DecidableEq, Repr

/-- The code R190 gives each AlarmState. -/
def AlarmState.toNat : AlarmState → Nat
  | .clear => 0
  | .raised => 1
  | .seen => 2
  | .acked => 3

/-- The AlarmState a code stands for, if it is one. -/
def AlarmState.ofNat? : Nat → Option AlarmState
  | 0 => some .clear
  | 1 => some .raised
  | 2 => some .seen
  | 3 => some .acked
  | _ => none

/-- Memory fault kinds (R190). -/
inductive FaultCode where
  | parity | timeout
deriving DecidableEq, Repr

/-- The code R190 gives each FaultCode. -/
def FaultCode.toNat : FaultCode → Nat
  | .parity => 1
  | .timeout => 2

/-- The FaultCode a code stands for, if it is one. -/
def FaultCode.ofNat? : Nat → Option FaultCode
  | 1 => some .parity
  | 2 => some .timeout
  | _ => none

/-- Memory fault sources (R190). -/
inductive FaultSource where
  | host | own
deriving DecidableEq, Repr

/-- The code R190 gives each FaultSource. -/
def FaultSource.toNat : FaultSource → Nat
  | .host => 1
  | .own => 2

/-- The FaultSource a code stands for, if it is one. -/
def FaultSource.ofNat? : Nat → Option FaultSource
  | 1 => some .host
  | 2 => some .own
  | _ => none

/-- Notice kinds, in the order section 9.3 lists them. -/
inductive NoticeKind where
  | bedState | bedResult | profileTaken | profileRefused | starved | gateSwapped | gateSwapRefused | pieceResult
  | pieceReady | moveRejected | moveEnded | moveSuspended | staleReport | runwayBlocked | armRefused | alarmRaised
  | alarmCleared
deriving DecidableEq, Repr

/-- The code R190 gives each NoticeKind. -/
def NoticeKind.toNat : NoticeKind → Nat
  | .bedState => 0
  | .bedResult => 1
  | .profileTaken => 2
  | .profileRefused => 3
  | .starved => 4
  | .gateSwapped => 5
  | .gateSwapRefused => 6
  | .pieceResult => 7
  | .pieceReady => 8
  | .moveRejected => 9
  | .moveEnded => 10
  | .moveSuspended => 11
  | .staleReport => 12
  | .runwayBlocked => 13
  | .armRefused => 14
  | .alarmRaised => 15
  | .alarmCleared => 16

/-- Notice source classes (R190). -/
inductive SourceClass where
  | bed | piece | probe | crane | loop | ring | move | heat
  | runway
deriving DecidableEq, Repr

/-- The code R190 gives each SourceClass. -/
def SourceClass.toNat : SourceClass → Nat
  | .bed => 1
  | .piece => 2
  | .probe => 3
  | .crane => 4
  | .loop => 5
  | .ring => 6
  | .move => 7
  | .heat => 8
  | .runway => 9

/-- The five piece states of the record and the two more of the Stock Unit's copy (R110). -/
inductive PieceState where
  | free | inBed | onHook | inStock | dispatched | reserved | freeing
deriving DecidableEq, Repr

/-- The code of a piece state in the record (section 6.1). RESERVED and FREEING are states of the
copy alone, of a piece whose record is or is being written FREE (R110). -/
def PieceState.toNat : PieceState → Nat
  | .free => 0
  | .inBed => 1
  | .onHook => 2
  | .inStock => 3
  | .dispatched => 4
  | .reserved => 0
  | .freeing => 0

/-- The piece state a record's code stands for, if it is one of the five. -/
def PieceState.ofNat? : Nat → Option PieceState
  | 0 => some .free
  | 1 => some .inBed
  | 2 => some .onHook
  | 3 => some .inStock
  | 4 => some .dispatched
  | _ => none

/-- What a probe measures for (section 3.1; R190: NONE 0, beds 1 to 24, YARD 25). -/
inductive Assignment where
  | nothing
  | bed (b : Fin 24)
  | yard
deriving DecidableEq, Repr

def Assignment.toNat : Assignment → Nat
  | .nothing => 0
  | .bed b => b.val + 1
  | .yard => 25

def Assignment.ofNat? (n : Nat) : Option Assignment :=
  if n = 0 then some .nothing
  else if n = 25 then some .yard
  else if h : n - 1 < 24 then some (.bed ⟨n - 1, h⟩)
  else none

/-- The regions of works memory (R26, R190), the gate list copies apart. -/
inductive Region where
  | directory | bed | mix | piece | slot | roster | crane | gateA | gateB | moveRing | moveTable | noticeRing
deriving DecidableEq, Repr

/-- Region codes (R190). -/
def Region.code : Region → Nat
  | .directory => 0
  | .bed => 1
  | .mix => 2
  | .piece => 3
  | .slot => 4
  | .roster => 5
  | .crane => 6
  | .gateA => 7
  | .gateB => 7
  | .moveRing => 8
  | .moveTable => 9
  | .noticeRing => 10

/-- The crane faults, in the order section 9.4 lists the crane's conditions (R131). -/
inductive FaultKind where
  | encoder | overrun | conflict | disobey | stop
deriving DecidableEq, Repr

/-- The bit number of a fault's condition in the crane's condition set (R190). -/
def FaultKind.bit : FaultKind → Nat
  | .encoder => 0
  | .overrun => 1
  | .conflict => 2
  | .disobey => 3
  | .stop => 4

end Sys2Proof.Machine
end

