-- ==== Sys2Proof/Machine/State.lean ====
section
/-! DEFINITION. Everything the manual gives the part, as plain data, and the part right after its
power-on reset. Each structure names the rule that lists its fields. Quantities the manual counts
with are numbers; words of works memory and the works time, which software sees as words, are bits. -/

namespace Sys2Proof.Machine

/-! ### Works memory -/

/-- Works memory: byte cells at strictly rising byte addresses, none of them 0 (log entry 1). -/
abbrev Memory := List Host.Cell

/-! ### The Path Unit (R24 to R49) -/

/-- One record of a region. -/
structure RecRef where
  region : Region
  index : Nat
deriving DecidableEq, Repr

/-- A word of a record: the record and the offset within it (R26). -/
structure WordRef where
  region : Region
  index : Nat
  offset : Nat
deriving DecidableEq, Repr

/-- A window of the region window set (R26). -/
structure Window where
  region : Region
  base : Nat
  size : Nat
  recLen : Nat
deriving DecidableEq, Repr

/-- A span: a run of consecutive words of one region from word `first` of the region on, each with
its enable (section 2.7). A word without its enable is `none`. -/
structure Span where
  region : Region
  first : Nat
  words : List (Option Word)
deriving DecidableEq, Repr

/-- A burst on the memory port (R25). -/
inductive Burst where
  | write (region : Region) (first : Nat) (words : List (Option Word))
  | read (region : Region) (first : Nat) (length : Nat)
deriving DecidableEq, Repr

/-- What an own read is made for, which names the owner that asked (R41). -/
inductive ReadFor where
  | directory
  | load (region : Region)
  | bedIntake (b : Fin 24)
  | take (b : Fin 24)
  | swap
  | moveIntake (entry : Nat)
  | redirect (entry : Fin 16)
deriving DecidableEq, Repr

/-- An own read: a run of records of one region (section 2.7). -/
structure OwnRead where
  purpose : ReadFor
  region : Region
  first : Nat
  length : Nat
deriving DecidableEq, Repr

/-- An owner's event that produces a commit group. The owner keeps it until the group is admitted
(R28, R38), and the group is formed from the owner's state at that moment (log entry 3). -/
inductive Job where
  /-- The next group of a bed request's result (R6, R10, R16). -/
  | bedRequest (b : Fin 24)
  /-- The head of a bed's deferred events (R7, R17). -/
  | bedEvent (b : Fin 24)
  /-- The result of a piece request (R114). -/
  | pieceResult (piece : Nat)
  /-- An enable word to put right (R53). -/
  | enableFix (entry : Nat)
  /-- The result of a take whose read has returned (R79). -/
  | takeResult (b : Fin 24)
  /-- A TAKE that found its bed out of CURING, or failed (R77). -/
  | takeRefused (b : Fin 24)
  /-- A notice group (R176). -/
  | notices
  /-- The result of a move intake (R154). -/
  | intakeResult
  /-- The HOOKED or UNHOOKED report at the head of a crane's report list (R163, R164). -/
  | report (c : Fin 2)
  /-- The head of the chain of ended moves (R170). -/
  | moveEnd
  /-- The result of a control request that is no ACCEPTED abort (R170). -/
  | ctrlResult (entry : Fin 16)
  /-- A redirect whose read has returned (R171). -/
  | redirect (entry : Fin 16)
deriving DecidableEq, Repr

/-- What a completed group tells the owner that gave it (R39). -/
inductive Completion where
  /-- A group of a large CAST or CLEAR that is not the last; the pieces a CLEAR has freed in it (R10, R16). -/
  | bedPart (b : Fin 24) (freed : List Nat)
  /-- The result group, the pieces a CLEAR has freed in it, and the change of bed state (R4, R6). -/
  | bedResult (b : Fin 24) (freed : List Nat) (change : Option (BedState × BedState))
  | bedEvent (b : Fin 24) (change : Option (BedState × BedState))
  | pieceResult (piece : Nat)
  | take (b : Fin 24)
  | notices (count head : Nat)
  | intake
  | moveEnd (entry : Fin 16)
  | control (entry : Fin 16)
  | twin
  | nothing
deriving DecidableEq, Repr

/-- A commit group in flight (R38, R39). -/
structure Group where
  completion : Completion
  spans : List Span
deriving DecidableEq, Repr

/-- A refresh slot with unsent content: live words of one record, by rising offset (R40). -/
structure RefreshSlot where
  region : Region
  index : Nat
  words : List (Nat × Word)
deriving DecidableEq, Repr

/-- An item of the own-transfer queue (R37). -/
inductive OwnItem where
  | group (g : Group)
  | refresh (r : RefreshSlot)
  | read (r : OwnRead)
deriving DecidableEq, Repr

/-- The item being served: its bursts not yet issued and, for a read, the words returned (R37). -/
structure Current where
  item : OwnItem
  rest : List Burst
  got : List Word
deriving DecidableEq, Repr

/-- An own read that has returned its data, or failed at a word of its region (R41). -/
structure ReturnedRead where
  read : OwnRead
  data : Option (List Word)
  failedAt : Nat
deriving DecidableEq, Repr

/-- What the memory port carries (R25, R42). -/
inductive Port where
  | free
  | host
  | own (b : Burst)
deriving DecidableEq, Repr

/-- The stages of a host transfer (R27). -/
inductive Stage where
  | waiting | taken | issued | finishing
deriving DecidableEq, Repr

/-- A request or an acknowledgement that a write carries (R34), or the events the Path Unit and the
Directory Unit take from their own words. -/
inductive HostEvent where
  | lifecycle (safe : Bool)
  | heat (swap : Bool)
  | tail (t : Nat)
  | faultClear
  | bed (b : Fin 24) (code : BedCode)
  | take (b : Fin 24)
  | enable (entry : Nat) (on : Bool)
  | piece (p : Nat) (code : PieceCode)
  | arm (c : Fin 2)
  | intake (entry : Nat)
  | control (entry : Fin 16) (code : CtrlCode)
  | ack (r : AlarmRef)
deriving DecidableEq, Repr

/-- The host transfer in the port (R27) with the answers its owners gave (R31): the twin words, the
requests and acknowledgements, a reserved slot (R33), and whether owners judged it (R29, R48). A READ keeps whether
it was taken during LOADING (R36; log entry 57). -/
structure UpTransfer where
  xfer : HostTransfer
  stage : Stage
  judged : Bool
  twins : List (WordRef × Word)
  events : List HostEvent
  reserved : Bool
  takenLoading : Bool
deriving DecidableEq, Repr

/-- The responses of the upstream port (R24). -/
inductive Response where
  | done | refused | dataError
deriving DecidableEq, Repr

/-- A response with the read data it returns. -/
structure Reply where
  response : Response
  data : List Word
deriving DecidableEq, Repr

/-- The upstream port (R24): the transfer it holds, those the host has issued behind it, and the responses
of the last command that gave any, in the order given. -/
structure HostPort where
  up : Option UpTransfer
  backlog : List HostTransfer
  replies : List Reply
deriving DecidableEq, Repr

/-- The two streams of the arbiter (R42). -/
inductive Stream where
  | host | own
deriving DecidableEq, Repr

/-- A party on the slot waiting list (R38). -/
inductive Party where
  | hostWrite
  | owner (j : Job)
deriving DecidableEq, Repr

/-- The refusal record (R32). -/
structure RefusalRecord where
  addr : Nat
  reason : Code
  time : Word
deriving DecidableEq, Repr

/-- One recorded memory fault (R45). -/
structure FaultRecord where
  addr : Nat
  kind : FaultCode
  source : FaultSource
  read : Bool
  time : Word
deriving DecidableEq, Repr

/-- The Path Unit's state. -/
structure PathUnit where
  windows : List Window
  known : Bool
  port : Port
  portMs : Nat
  current : Option Current
  queue : List OwnItem
  answered : List Group
  returned : List ReturnedRead
  outbox : List Job
  kept : List Job
  slotWait : List Party
  lastServed : Stream
  refusal : RefusalRecord
  fault : Option FaultRecord
deriving DecidableEq, Repr

/-! ### The Directory Unit (R183 to R189) -/

/-- The Directory Unit's state, with the directory plan words the blocks use. -/
structure DirectoryUnit where
  base : Nat
  lifecycle : Lifecycle
  loadCode : Code
  loadRegion : Nat
  loadIndex : Nat
  safeCause : SafeCause
  restartPending : Bool
  worksTime : Word
  counting : Bool
  takeTime : Bool
  writeBack : Nat
  attn : Bool
  dirRead : Bool
  zones : Nat
  bayZone : Nat
  budget : Nat
  pieceCap : Nat
  slotCount : Nat
  rosterCount : Nat
deriving DecidableEq, Repr

/-- Where loading stands (R184, R185). -/
inductive LoadPhase where
  | idle | directory | regions | building
deriving DecidableEq, Repr

/-- The load reads still out, and what has come back. -/
structure LoadState where
  phase : LoadPhase
  awaited : List Region
  data : List (Region × List Word)
deriving DecidableEq, Repr

/-! ### Alarms and notices (R174 to R182) -/

/-- An alarm block: state, condition set (bit n for the n-th condition, R190) and raise time. -/
structure AlarmBlock where
  state : AlarmState
  conditions : Word
  raiseTime : Word
deriving DecidableEq, Repr

/-- A notice (section 9.1). -/
structure Notice where
  kind : NoticeKind
  cls : SourceClass
  index : Nat
  detail : Word
  time : Word
deriving DecidableEq, Repr

/-- The Notice Unit's ring and pending set, and whether the alarm blocks exist (R174, R181). -/
structure NoticeUnit where
  size : Nat
  assignedHead : Nat
  writtenHead : Nat
  tail : Nat
  writeList : List Notice
  groupMark : Bool
  waiting : List Notice
  alarmsBuilt : Bool
deriving DecidableEq, Repr

/-! ### Beds and curing (R1, R73) and the steam of each bed (R96) -/

/-- The state events the Curing Controller hands the Bed Unit (R7). -/
inductive BedEvent where
  | releaseReached | profileEnd
deriving DecidableEq, Repr

/-- The stages of a bed request (R1). -/
inductive BedStage where
  | waitingRead | readInFlight | waitingSlot | resultInFlight
deriving DecidableEq, Repr

/-- A bed request in progress: its code and stage (R1), the pieces a CAST has set aside (R5), and the
formed result: the pieces it concerns in position order, those still to write, the piece list words
the intake read found, the time it was formed at, and the state an END_CURE leads to (R6, R9, R14, R16). -/
structure BedRequest where
  code : BedCode
  stage : BedStage
  setAside : Nat
  result : Code
  pieces : List Nat
  toWrite : List Nat
  plan : List Word
  time : Word
  target : BedState
deriving DecidableEq, Repr

/-- The Bed Unit's state of one bed (R1). -/
structure BedUnit where
  state : BedState
  mix : Nat
  pieceCount : Nat
  inBed : List Nat
  request : Option BedRequest
  deferred : List BedEvent
deriving DecidableEq, Repr

/-- A segment of a profile (section 4.2). -/
structure Segment where
  target : Int
  rate : Nat
  hold : Nat
  guarded : Nat
deriving DecidableEq, Repr

/-- A curing profile (section 4.2): segment count, proportional band, eight segment entries. -/
structure Profile where
  count : Nat
  band : Nat
  segments : List Segment
deriving DecidableEq, Repr

/-- The cure context of a CURING bed (R73). The sub-state is kept as last derived (R85). -/
structure CureContext where
  held : Bool
  blind : Bool
  overheat : Bool
  sub : SubState
  segment : Nat
  phase : Phase
  setpoint : Int
  holdDone : Nat
  ramp : Nat
  duty : Nat
  ended : Bool
  profile : Profile
deriving DecidableEq, Repr

/-- The take pending mark and its stage (R73, R75, R77 to R80). -/
inductive TakeStage where
  | none
  | waitingSegmentEnd
  | readInFlight
  /-- The read's data has been tested, or the read has failed; the group waits (R79). Kept with the
  verdict are the pending header and segment words as the read found them. -/
  | formed (verdict : Code) (pending : List Word)
  | resultInFlight
  /-- The request found its bed out of CURING, or failed: this group is to be handed (R77). -/
  | refusing (reason : Code)
  /-- That group has been handed (R77). -/
  | refused
  /-- Discarded by END_CURE or profile end: pending until that group completes (R80, R92). -/
  | discarding
deriving DecidableEq, Repr

/-- The Curing Controller's state of one bed (R73). -/
structure CuringUnit where
  core : Int
  air : Int
  sighted : Bool
  maturity : Nat
  bedState : BedState
  context : Option CureContext
  take : TakeStage
deriving DecidableEq, Repr

/-- The Steam Allocator's state of one bed (R96), and its valve output. -/
structure SteamBed where
  rating : Nat
  priority : Nat
  demand : Nat
  running : Bool
  granted : Nat
  closed : Bool
  starved : Nat
  armed : Bool
  valve : Bool
deriving DecidableEq, Repr

/-- One bed: what each owner keeps for it, and its alarm block. -/
structure Bed where
  unit : BedUnit
  cure : CuringUnit
  steam : SteamBed
  alarm : AlarmBlock
deriving DecidableEq, Repr

/-- A mix entry's copy (section 1.6) and its use count (R1). -/
structure Mix where
  datum : Int
  release : Nat
  lift : Nat
  dispatch : Nat
  overheat : Int
  useCount : Nat
deriving DecidableEq, Repr

/-- One entry of a gate list (section 5.2). -/
structure GateEntry where
  duration : Nat
  openSet : Word
deriving DecidableEq, Repr

/-- The two gate list copies (R96). -/
inductive GateCopy where
  | a | b
deriving DecidableEq, Repr

/-- The Steam Allocator's state of the whole part (R96). -/
structure SteamUnit where
  active : GateCopy
  entries : List GateEntry
  index : Nat
  secondsLeft : Nat
  swapPending : Bool
  swapRead : Bool
  cancelled : Bool
  rotation : Nat
  valveStep : Nat
  lowFire : Bool
deriving DecidableEq, Repr

/-! ### Probe loops (R50) -/

/-- A roster entry as the Probe Loop Controller keeps it (R50), and its alarm block. -/
structure ProbeEntry where
  loop : Nat
  address : Nat
  assignment : Assignment
  state : ProbeState
  miss : Nat
  good : Nat
  core : Int
  air : Int
  readingTime : Word
  outcome : PollOutcome
  alarm : AlarmBlock
deriving DecidableEq, Repr

/-- A character as the receiver hands it over (R60). -/
structure RxChar where
  data : BitVec 8
  mark : Bool
  noise : Bool
  framing : Bool
deriving DecidableEq, Repr

/-- A poll in flight (R50). -/
structure Poll where
  entry : Nat
  abandoned : Bool
  sent : Bool
  chars : List RxChar
deriving DecidableEq, Repr

/-- Line states (R50). -/
inductive LineState where
  | idleWaiting | idleSending | running | stuck
deriving DecidableEq, Repr

/-- What the part transmits on a loop (R59): a poll is the bits of its two characters in line order. -/
inductive LoopTx where
  | released | poll (bits : List Bool) | startSequence | breakOnly
deriving DecidableEq, Repr

/-- What a serial receiver is doing (R60, R158): it looks for a falling edge; it is inside a character,
with the samples taken since the edge and the middle samples among them, latest first; or it waits for
the line to read high. -/
inductive Receiver where
  | lookForStart
  | inCharacter (count : Nat) (middle : List Bool)
  | waitForHigh
deriving DecidableEq, Repr

/-- A serial receiver, the line as it last sampled it, and the samples its gap timer has counted (R60, R62,
R158). -/
structure LineReceiver where
  mode : Receiver
  high : Bool
  gap : Nat
deriving DecidableEq, Repr

/-- One probe loop (R50), and its alarm block. -/
structure Loop where
  line : LineState
  tx : LoopTx
  pointer : Option Nat
  poll : Option Poll
  replyMs : Nat
  slotPending : Bool
  rx : LineReceiver
  lowTimer : Nat
  highTimer : Nat
  breakTimer : Nat
  alarm : AlarmBlock
deriving DecidableEq, Repr

/-! ### Stock (R110) -/

/-- The stages of a piece request (R110). -/
inductive PieceStage where
  | waitingSlot | resultInFlight
deriving DecidableEq, Repr

/-- A piece request in progress, with its formed result (R114). -/
structure PieceRequest where
  code : PieceCode
  stage : PieceStage
  result : Code
deriving DecidableEq, Repr

/-- The Stock Unit's copies of one piece (R110). The optional slot, claim and hold are 0 when absent. -/
structure Piece where
  state : PieceState
  bed : Nat
  position : Nat
  length : Nat
  mix : Nat
  zone : Nat
  slot : Nat
  claim : Nat
  hold : Word
  maturity : Nat
  ready : Bool
  request : Option PieceRequest
deriving DecidableEq, Repr

/-- A claim (R119). -/
structure Claim where
  move : Nat
  op : ClaimOp
  piece : Nat
deriving DecidableEq, Repr

/-- A stock slot: the plan copies, the stack bottom first, the claim list head first (R110). -/
structure Slot where
  zone : Nat
  maxHeight : Nat
  isOpen : Bool
  stack : List Nat
  claims : List Claim
deriving DecidableEq, Repr

/-- The Stock Unit's state: entry n−1 of each list is piece or slot n. -/
structure StockUnit where
  pieces : List Piece
  slots : List Slot
  dispatched : List Nat
deriving DecidableEq, Repr

/-! ### The runway (R131) and the cab links (R151) -/

/-- One value for each permit of a crane (R131). -/
structure ByPermit (α : Type) where
  travelWest : α
  travelEast : α
  hoistLower : α
  hoistRaise : α
deriving DecidableEq, Repr

/-- The phase copy: the phase of the crane's active move, or IDLE (R131, R140). -/
inductive CranePhase where
  | idle
  | move (s : MoveState)
deriving DecidableEq, Repr

/-- A reserved span [lo, hi] (R136). -/
structure ZoneRun where
  lo : Nat
  hi : Nat
deriving DecidableEq, Repr

/-- The Runway Monitor's state of one crane (R131), and the crane's inputs. -/
structure Monitor where
  zoneWidth : Nat
  origin : Int
  indexRef : Int
  deadTime : Nat
  count : Int
  chanA : Bool
  chanB : Bool
  homed : Bool
  homingArmed : Bool
  indexSeen : Bool
  detecting : Bool
  posZone : Option Int
  span : Option ZoneRun
  armed : Bool
  permits : ByPermit Bool
  blockTimers : ByPermit Nat
  offTimers : ByPermit Nat
  phase : CranePhase
  targets : List Nat
  request : Option (List Nat)
  latched : List FaultKind
  armResult : Code
  feedback : ByPermit Bool
  cabStop : Bool
deriving DecidableEq, Repr

/-- An instruction to a cab (R160, R191). -/
structure Instruction where
  kind : InstrKind
  tag : Nat
  zone : Nat
  piece : Nat
  purpose : Purpose
deriving DecidableEq, Repr

/-- What a cab link's shifter sends: an instruction and its eight characters (R160, R191). -/
structure Sending where
  instruction : Instruction
  block : List (BitVec 8)
deriving DecidableEq, Repr

/-- A received report (section 8.4). -/
structure Report where
  kind : ReportKind
  tag : Nat
  zone : Nat
  piece : Nat
  load : Nat
deriving DecidableEq, Repr

/-- The Move Controller's state of one crane (R151); the lost timer counts while `lostRuns` is set (R159). -/
structure CabSide where
  queue : List Nat
  armed : Bool
  homed : Bool
  posZone : Option Int
  span : Option ZoneRun
  sequence : Bool
  link : LinkState
  quietTimer : Nat
  lostTimer : Nat
  lostRuns : Bool
  rx : LineReceiver
  block : List RxChar
  reports : List Report
  slot : Option Instruction
  shifter : Option Sending
  cabReady : Bool
  blockedMark : Bool
deriving DecidableEq, Repr

/-- One crane: the monitor's side, the Move Controller's side, and its alarm block. -/
structure Crane where
  mon : Monitor
  cab : CabSide
  alarm : AlarmBlock
deriving DecidableEq, Repr

/-! ### Moves (R151) -/

/-- The stages of a control request (R170, R171). -/
inductive CtrlStage where
  | readInFlight | waitingSlot | resultInFlight
deriving DecidableEq, Repr

/-- A control request in progress with its formed result and, for a redirect, the new destination
its read found. -/
structure CtrlRequest where
  code : CtrlCode
  stage : CtrlStage
  result : Code
  dest : Nat
deriving DecidableEq, Repr

/-- A mirror entry of the move table, and what the controller keeps with it (R151). -/
structure Move where
  number : Nat
  kind : MoveKind
  crane : Fin 2
  piece : Nat
  dest : Nat
  waitLimit : Nat
  travelLimit : Nat
  source : Nat
  pickZone : Option Nat
  placeZone : Nat
  serial : Nat
  state : MoveState
  remembered : Option MoveState
  endReason : Code
  control : Option CtrlCode
  newDest : Nat
  ctrlResult : Word
  accepted : Bool
  ctrl : Option CtrlRequest
  waitTimer : Option Nat
  travelTimer : Option Nat
  arrived : Bool
  withdrawing : Bool
  resume : Option MoveState
  gotoPlaced : Bool
deriving DecidableEq, Repr

/-- The stages of an intake (R151). -/
inductive IntakeStage where
  | readInFlight | waitingSlot | resultInFlight
deriving DecidableEq, Repr

/-- The intake in progress: ring entry, stage, formed result, the order number examined, and the
table entry an accepted move took (R151, R154). -/
structure Intake where
  entry : Nat
  stage : IntakeStage
  result : Code
  order : Nat
  table : Option (Fin 16)
deriving DecidableEq, Repr

/-- An ended move whose group is still to be handed: its entry, whether the end answers a host ABORT,
and the piece and slots whose records the group carries (R170). -/
structure MoveEnd where
  entry : Fin 16
  byHost : Bool
  piece : Nat
  slots : List Nat
deriving DecidableEq, Repr

/-- The Move Controller's state of the whole part (R151). -/
structure MoveUnit where
  ringSize : Nat
  nextIndex : Nat
  intake : Option Intake
  serial : Nat
  table : Vector Move 16
  endChain : List MoveEnd
  endBusy : Bool
deriving DecidableEq, Repr

/-! ### The whole part -/

/-- The part, and the commands that wait for it. -/
structure State where
  pending : List Instr
  mem : Memory
  host : HostPort
  path : PathUnit
  dir : DirectoryUnit
  load : LoadState
  notices : NoticeUnit
  beds : Vector Bed 24
  mixes : Vector Mix 16
  freeCount : Nat
  steam : SteamUnit
  roster : List ProbeEntry
  loops : Vector Loop 4
  rosterLoaded : Bool
  stock : StockUnit
  cranes : Vector Crane 2
  yardStop : Bool
  cranesLoaded : Bool
  moves : MoveUnit
  clockMs : Nat
deriving DecidableEq, Repr

/-! ### Power-on values -/

/-- An alarm block that does not exist yet: its state is read by nothing and changed by nothing until
`NoticeUnit.alarmsBuilt` says that the blocks exist (R174, R181). -/
def AlarmBlock.reset : AlarmBlock := ⟨.clear, 0, 0⟩

/-- R1. -/
def BedUnit.reset : BedUnit :=
  { state := .empty, mix := 0, pieceCount := 0, inBed := [], request := none, deferred := [] }

/-- R73. -/
def CuringUnit.reset : CuringUnit :=
  { core := 0, air := 0, sighted := false, maturity := 0, bedState := .empty, context := none, take := .none }

/-- R96. -/
def SteamBed.reset : SteamBed :=
  { rating := 0, priority := 0, demand := 0, running := false, granted := 0, closed := true,
    starved := 0, armed := true, valve := false }

def Bed.reset : Bed := ⟨BedUnit.reset, CuringUnit.reset, SteamBed.reset, AlarmBlock.reset⟩

/-- R1. -/
def Mix.reset : Mix := { datum := 0, release := 0, lift := 0, dispatch := 0, overheat := 0, useCount := 0 }

/-- R96; the low-fire input is taken as inactive until it is first sampled (log entry 5). -/
def SteamUnit.reset : SteamUnit :=
  { active := .a, entries := [], index := 0, secondsLeft := 0, swapPending := false, swapRead := false,
    cancelled := false, rotation := 1, valveStep := 0, lowFire := false }

/-- A receiver that looks for a start bit with nothing received; a line rests high (section 3.4, log entry 5). -/
def LineReceiver.reset : LineReceiver := { mode := .lookForStart, high := true, gap := 0 }

/-- R50. -/
def Loop.reset : Loop :=
  { line := .idleWaiting, tx := .released, pointer := none, poll := none, replyMs := 0,
    slotPending := false, rx := LineReceiver.reset, lowTimer := 0, highTimer := 0, breakTimer := 0,
    alarm := AlarmBlock.reset }

/-- The same value for each permit. -/
def ByPermit.all {α : Type} (x : α) : ByPermit α := ⟨x, x, x, x⟩

/-- R131; inputs inactive, encoder channels 00 (log entry 5), arm result NONE (log entry 6). -/
def Monitor.reset : Monitor :=
  { zoneWidth := 0, origin := 0, indexRef := 0, deadTime := 0, count := 0, chanA := false, chanB := false,
    homed := false, homingArmed := false, indexSeen := false, detecting := false, posZone := none,
    span := none, armed := false, permits := .all false, blockTimers := .all 0, offTimers := .all 0,
    phase := .idle, targets := [], request := none, latched := [], armResult := .none,
    feedback := .all false, cabStop := false }

/-- R151; cab-ready inactive (log entry 5). -/
def CabSide.reset : CabSide :=
  { queue := [], armed := false, homed := false, posZone := none, span := none, sequence := false,
    link := .quiet, quietTimer := 0, lostTimer := 0, lostRuns := false, rx := LineReceiver.reset, block := [],
    reports := [], slot := none, shifter := none, cabReady := false, blockedMark := false }

def Crane.reset : Crane := ⟨Monitor.reset, CabSide.reset, AlarmBlock.reset⟩

/-- R151: every mirror entry is EMPTY. -/
def Move.reset : Move :=
  { number := 0, kind := .lift, crane := 0, piece := 0, dest := 0, waitLimit := 0, travelLimit := 0,
    source := 0, pickZone := none, placeZone := 0, serial := 0, state := .empty, remembered := none,
    endReason := .none, control := none, newDest := 0, ctrlResult := 0, accepted := false, ctrl := none, waitTimer := none,
    travelTimer := none, arrived := false, withdrawing := false, resume := none, gotoPlaced := false }

/-- R151. -/
def MoveUnit.reset : MoveUnit :=
  { ringSize := 0, nextIndex := 0, intake := none, serial := 0, table := Vector.replicate 16 Move.reset,
    endChain := [], endBusy := false }

/-- R174. -/
def NoticeUnit.reset : NoticeUnit :=
  { size := 0, assignedHead := 0, writtenHead := 0, tail := 0, writeList := [], groupMark := false, waiting := [],
    alarmsBuilt := false }

/-- R110. -/
def StockUnit.reset : StockUnit := { pieces := [], slots := [], dispatched := [] }

/-- R32: "address 0, reason NONE and time 0". -/
def RefusalRecord.reset : RefusalRecord := ⟨0, .none, 0⟩

/-- The directory window at a DIRSEL base (R26); the directory is 64 words (R184). -/
def directoryWindow (base : Nat) : Window := ⟨.directory, base, 64, 64⟩

/-- The own read of the directory that loading begins with (R184). -/
def directoryRead : OwnRead := ⟨.directory, .directory, 0, 64⟩

/-- The Path Unit as loading begins: the power-on values (R26, R28, R32, R37, R38, R42) with the
directory read asked for and its first burst issued, since nothing else wants the port (R184, R42). -/
def PathUnit.loading (base : Nat) (fault : Option FaultRecord) : PathUnit :=
  { windows := [directoryWindow base], known := false, port := .own (.read .directory 0 16), portMs := 0,
    current := some ⟨.read directoryRead, [.read .directory 16 16, .read .directory 32 16, .read .directory 48 16], []⟩,
    queue := [], answered := [], returned := [], outbox := [], kept := [], slotWait := [],
    lastServed := .own, refusal := RefusalRecord.reset, fault := fault }

/-- The Directory Unit after a power-on reset with the given DIRSEL base (R183); ATTN is active
because the lifecycle is LOADING (R178). -/
def DirectoryUnit.loading (base : Nat) : DirectoryUnit :=
  { base := base, lifecycle := .loading, loadCode := .none, loadRegion := 0, loadIndex := 0,
    safeCause := .none, restartPending := false, worksTime := 0, counting := false, takeTime := true,
    writeBack := 0, attn := true, dirRead := false, zones := 0, bayZone := 0, budget := 0, pieceCap := 0,
    slotCount := 0, rosterCount := 0 }

/-- Loading with the directory read out (R184). -/
def LoadState.begun : LoadState := ⟨.directory, [], []⟩

/-- The part right after a power-on reset with all three straps at 0 (log entry 2) and works memory
empty (log entry 1). -/
def State.reset : State :=
  { pending := [], mem := [], host := ⟨none, [], []⟩, path := PathUnit.loading 0 none,
    dir := DirectoryUnit.loading 0, load := LoadState.begun, notices := NoticeUnit.reset,
    beds := Vector.replicate 24 Bed.reset, mixes := Vector.replicate 16 Mix.reset, freeCount := 0,
    steam := SteamUnit.reset, roster := [], loops := Vector.replicate 4 Loop.reset, rosterLoaded := false,
    stock := StockUnit.reset, cranes := Vector.replicate 2 Crane.reset, yardStop := false,
    cranesLoaded := false, moves := MoveUnit.reset, clockMs := 0 }

/-! ### How a step can end other than in a next state -/

/-- Faults of a step. The manual has no event that stops the part: errors of the memory, of the
records and of the field are states of the part (SAFE, a recorded fault, an alarm). So no command
raises one. -/
inductive Fault where
  /-- Raised by nothing: the type needs a name for a stopped part. Safe. -/
  | stopped
deriving DecidableEq, Repr

/-- Refusals of a step. -/
inductive Refusal where
  /-- An arm of `exec` without a meaning yet. Safe. -/
  | notModelled (mnemonic : String)
deriving DecidableEq, Repr

end Sys2Proof.Machine
end

