-- ==== Sys2Proof/Machine/Ops.lean ====
section
/-! DEFINITION. The named operations over works memory, over bits of words, and over the tables of
State. Works memory is a canonical list of byte cells (log entry 1): the addresses rise strictly and
no cell holds 0, which is what an unlisted byte reads as. -/

namespace Sys2Proof.Machine

/-! ### Works memory (R24, R25) -/

/-- The byte at a byte address. -/
def byteAt : Memory → Nat → Byte
  | [], _ => 0
  | (k, b) :: rest, a => if k = a then b else byteAt rest a

/-- Store one byte, keeping the canonical form. -/
def setByte : Memory → Nat → Byte → Memory
  | [], a, b => if b = 0 then [] else [(a, b)]
  | (k, c) :: rest, a, b =>
    if a < k then (if b = 0 then (k, c) :: rest else (a, b) :: (k, c) :: rest)
    else if a = k then (if b = 0 then rest else (a, b) :: rest)
    else (k, c) :: setByte rest a b

/-- The canonical form from a lower bound on: strictly rising addresses, no cell of 0. -/
def memoryWfFrom : Nat → Memory → Bool
  | _, [] => true
  | lo, (k, b) :: rest => decide (lo ≤ k) && decide (b ≠ 0) && memoryWfFrom (k + 1) rest

/-- The canonical form of works memory. -/
def Memory.wf (m : Memory) : Bool := memoryWfFrom 0 m

/-- Byte i of a word: bits 8i to 8i+7 (log entry 1). -/
def byteOf (w : Word) (i : Nat) : Byte := w.extractLsb' (8 * i) 8

/-- The word at a word address: byte i lies at byte address 4w+i (log entry 1). -/
def wordAt (m : Memory) (w : Nat) : Word :=
  byteAt m (4 * w + 3) ++ byteAt m (4 * w + 2) ++ byteAt m (4 * w + 1) ++ byteAt m (4 * w)

/-- Store the bytes of a word that are enabled (R24). -/
def setWordBytes (m : Memory) (w : Nat) (v : Word) (enables : BitVec 4) : Memory :=
  [0, 1, 2, 3].foldl (fun m i => if enables.getLsbD i then setByte m (4 * w + i) (byteOf v i) else m) m

/-- Store a whole word. -/
def setWord (m : Memory) (w : Nat) (v : Word) : Memory := setWordBytes m w v 15#4

/-- `n` consecutive words. -/
def wordsAt (m : Memory) (w : Nat) : Nat → List Word
  | 0 => []
  | n + 1 => wordAt m w :: wordsAt m (w + 1) n

/-- An own write burst: a word without its enable is left as it is (R25). -/
def setWords (m : Memory) (w : Nat) : List (Option Word) → Memory
  | [] => m
  | none :: rest => setWords m (w + 1) rest
  | some v :: rest => setWords (setWord m w v) (w + 1) rest

/-- A host WRITE: each word with its own byte enables (R25). -/
def setHostWords (m : Memory) (w : Nat) : List WriteWord → Memory
  | [] => m
  | v :: rest => setHostWords (setWordBytes m w v.value v.enables) (w + 1) rest

/-! ### Bits of words -/

/-- The unsigned number in `n` bits of a word from bit `lo` on. -/
def bitsAt (w : Word) (lo n : Nat) : Nat := (w.extractLsb' lo n).toNat

/-- The low half of a word as a signed number: a segment's target (R190). -/
def lowSigned (w : Word) : Int := (w.extractLsb' 0 16).toInt

/-- Two fields of a word: bits 0 to 7 and 8 to 15. -/
def packBytes (lo hi : Nat) : Word := Word.ofCount (lo % 256 + 256 * (hi % 256))

/-- A detail of two parts: bits 0 to 15 and 16 to 31 (R190). -/
def detail2 (a b : Nat) : Word := Word.ofCount (a % 65536 + 65536 * (b % 65536))

/-- A detail of three parts: bits 0 to 15, 16 to 23 and 24 to 31 (R190). -/
def detail3 (a b c : Nat) : Word := Word.ofCount (a % 65536 + 65536 * (b % 256) + 16777216 * (c % 256))

/-- "A last request result or control result holds the request code in bits 0–7 and the result in
bits 8–15" (R190). -/
def resultWord (code : Nat) (result : Code) : Word := packBytes code result.toNat

def boolWord (b : Bool) : Word := if b then 1 else 0

/-- Bit `n` of a set of beds or conditions. -/
def setBit (w : Word) (n : Nat) : Word := w ||| (1#32 <<< n)

def clearBit (w : Word) (n : Nat) : Word := w &&& ~~~(1#32 <<< n)

/-! ### Numbers and lists -/

/-- Maturity saturates at its maximum (00_scope.md "Units"). -/
def saturate (n : Nat) : Nat := min n Config.maxFigure

/-- "the mean ... rounded down" of a list of readings (R69, R83). -/
def meanDown (xs : List Int) : Int := xs.foldl (· + ·) 0 / (xs.length : Int)

/-- A signed number brought back into 24 bits (R133). -/
def wrap24 (i : Int) : Int := (BitVec.ofInt 24 i).toInt

/-- The numbers from `lo` on. -/
def countFrom (lo : Nat) : Nat → List Nat
  | 0 => []
  | n + 1 => lo :: countFrom (lo + 1) n

/-- Put into a list ordered by a key, behind what is not above it. -/
def insertBy {α : Type} (key : α → Nat) (x : α) : List α → List α
  | [] => [x]
  | y :: ys => if key x < key y then x :: y :: ys else y :: insertBy key x ys

/-- A list ordered by a key, equal keys in their first order. -/
def sortBy {α : Type} (key : α → Nat) (xs : List α) : List α :=
  xs.foldl (fun acc x => insertBy key x acc) []

/-- The value listed for an offset. -/
def wordFor (words : List (Nat × Word)) (offset : Nat) : Option Word := words.lookup offset

/-- A list with a word set: replaced, or joined in offset order (R40). -/
def joinWord (w : Nat × Word) : List (Nat × Word) → List (Nat × Word)
  | [] => [w]
  | x :: xs => if w.1 < x.1 then w :: x :: xs else if w.1 = x.1 then w :: xs else x :: joinWord w xs

/-- A slot's words with newer ones joined (R40). -/
def joinWords (old new : List (Nat × Word)) : List (Nat × Word) := new.foldl (fun acc w => joinWord w acc) old

/-- The words whose value is not the one before: the changed words of a refresh (R54, R132). -/
def changedWords (old new : List (Nat × Word)) : List (Nat × Word) :=
  new.filter (fun w => decide (wordFor old w.1 ≠ some w.2))

/-- The words of a record laid side by side, from its first listed offset on. -/
def laidOut (words : List (Nat × Word)) (lo n : Nat) : List (Option Word) :=
  (countFrom lo n).map (wordFor words)

/-- The numbers at a list's places, from `i` on. -/
def indexed {α : Type} : Nat → List α → List (Nat × α)
  | _, [] => []
  | i, x :: xs => (i, x) :: indexed (i + 1) xs

/-! ### The tables of State -/

def State.bed (s : State) (b : Fin 24) : Bed := s.beds.get b

def State.setBed (s : State) (b : Fin 24) (x : Bed) : State := { s with beds := s.beds.set b x }

def State.loop (s : State) (l : Fin 4) : Loop := s.loops.get l

def State.setLoop (s : State) (l : Fin 4) (x : Loop) : State := { s with loops := s.loops.set l x }

def State.crane (s : State) (c : Fin 2) : Crane := s.cranes.get c

def State.setCrane (s : State) (c : Fin 2) (x : Crane) : State := { s with cranes := s.cranes.set c x }

def State.move (s : State) (i : Fin 16) : Move := s.moves.table.get i

/-- Change a mirror entry without a refresh: its words go out in a commit group. -/
def State.putMove (s : State) (i : Fin 16) (m : Move) : State :=
  { s with moves := { s.moves with table := s.moves.table.set i m } }

/-- The copy of a mix, 1 to 16; a number out of range reads as the zero copy. -/
def State.mix (s : State) (n : Nat) : Mix :=
  if h : 1 ≤ n ∧ n ≤ 16 then s.mixes.get ⟨n - 1, by omega⟩ else Mix.reset

def State.setMix (s : State) (n : Nat) (m : Mix) : State :=
  if h : 1 ≤ n ∧ n ≤ 16 then { s with mixes := s.mixes.set (n - 1) m } else s

/-- The copies of piece n, counted from 1. -/
def State.piece? (s : State) (n : Nat) : Option Piece := if n = 0 then none else s.stock.pieces[n - 1]?

def State.setPiece (s : State) (n : Nat) (p : Piece) : State :=
  { s with stock := { s.stock with pieces := s.stock.pieces.set (n - 1) p } }

/-- The copies of stock slot n, counted from 1. -/
def State.slot? (s : State) (n : Nat) : Option Slot := if n = 0 then none else s.stock.slots[n - 1]?

def State.setSlot (s : State) (n : Nat) (x : Slot) : State :=
  { s with stock := { s.stock with slots := s.stock.slots.set (n - 1) x } }

/-- Fold a change over every bed, in bed number order. -/
def forBeds (f : Fin 24 → State → State) (s : State) : State := (List.finRange 24).foldl (fun s b => f b s) s

def forLoops (f : Fin 4 → State → State) (s : State) : State := (List.finRange 4).foldl (fun s l => f l s) s

def forCranes (f : Fin 2 → State → State) (s : State) : State := (List.finRange 2).foldl (fun s c => f c s) s

def forMoves (f : Fin 16 → State → State) (s : State) : State := (List.finRange 16).foldl (fun s i => f i s) s

/-- The other crane of the runway. -/
def otherCrane (c : Fin 2) : Fin 2 := if c = 0 then 1 else 0

/-- That the lifecycle is RUNNING. -/
def State.running (s : State) : Bool := decide (s.dir.lifecycle = .running)

/-- That the lifecycle is SAFE. -/
def State.safe (s : State) : Bool := decide (s.dir.lifecycle = .safe)

/-- A table entry's number as a roster, loop or crane operand, when it is in range. -/
def fin? (k n : Nat) : Option (Fin k) := if h : n < k then some ⟨n, h⟩ else none

end Sys2Proof.Machine
end

