-- ==== Sys2Proof/Machine/Operands.lean ====
section
/-! DEFINITION. Where every word lies: the record lengths and field offsets of R190, the region
windows of R26, spans of records (section 2.7), and the records as the owners' copies give them. -/

namespace Sys2Proof.Machine

/-! ### Regions, windows and spans -/

/-- Record length of a region in words (R190, R184). -/
def Region.recLen : Region → Nat
  | .directory => 64
  | .bed => 80
  | .mix => 8
  | .piece => 12
  | .slot => 20
  | .roster => 16
  | .crane => 20
  | .gateA => 65
  | .gateB => 65
  | .moveRing => 8
  | .moveTable => 16
  | .noticeRing => 4

/-- "A word lies in a window when its address is at least the base and below the base plus the size" (R26). -/
def Window.holds (w : Window) (addr : Nat) : Bool := decide (w.base ≤ addr ∧ addr < w.base + w.size)

/-- The record and offset of a word in a window (R26). -/
def Window.locate (w : Window) (addr : Nat) : WordRef :=
  ⟨w.region, (addr - w.base) / w.recLen, (addr - w.base) % w.recLen⟩

/-- The record a word address lies in, if it lies in any window (R26). -/
def locate (ws : List Window) (addr : Nat) : Option WordRef :=
  match ws.find? (fun w => w.holds addr) with
  | some w => some (w.locate addr)
  | none => none

/-- The window of a region. -/
def State.window? (s : State) (r : Region) : Option Window := s.path.windows.find? (fun w => decide (w.region = r))

/-- The word address at which a region begins; 0 when it has no window. -/
def State.regionBase (s : State) (r : Region) : Nat :=
  match s.window? r with
  | some w => w.base
  | none => 0

/-- The word address of a word of a record. -/
def State.addrOf (s : State) (r : Region) (index offset : Nat) : Nat := s.regionBase r + index * r.recLen + offset

/-- A word of a record as memory holds it. -/
def State.recordWord (s : State) (r : Region) (index offset : Nat) : Word := wordAt s.mem (s.addrOf r index offset)

/-- "A record belongs to a group when any word of the record lies in one of the group's spans" (section 2.7). -/
def runTouches (r : Region) (first length : Nat) (x : RecRef) : Bool :=
  decide (x.region = r ∧ 0 < length ∧ first / r.recLen ≤ x.index ∧ x.index ≤ (first + length - 1) / r.recLen)

def Span.touches (sp : Span) (x : RecRef) : Bool := runTouches sp.region sp.first sp.words.length x

def OwnRead.touches (rd : OwnRead) (x : RecRef) : Bool := runTouches rd.region rd.first rd.length x

/-- The span of one record that writes the given words and leaves the words between alone. -/
def recordSpan (r : Region) (index : Nat) (words : List (Nat × Word)) : Span :=
  match sortBy (·.1) words with
  | [] => ⟨r, index * r.recLen, []⟩
  | w :: rest =>
    let hi := (rest.getLastD w).1
    ⟨r, index * r.recLen + w.1, laidOut words w.1 (hi + 1 - w.1)⟩

/-- Whether a span writes a word of its region. -/
def Span.writes (sp : Span) (word : Nat) : Bool :=
  decide (sp.first ≤ word) && ((sp.words[word - sp.first]?).getD none).isSome

/-- A span grown to hold one more word, "with the words between left not enabled" (R40). A word
the span itself writes stands. -/
def Span.grow (sp : Span) (word : Nat) (v : Word) : Span :=
  if word < sp.first then
    { sp with first := word, words := some v :: (List.replicate (sp.first - word - 1) none ++ sp.words) }
  else if word < sp.first + sp.words.length then
    if sp.writes word then sp else { sp with words := sp.words.set (word - sp.first) (some v) }
  else
    { sp with words := sp.words ++ List.replicate (word - sp.first - sp.words.length) none ++ [some v] }

/-! ### Profiles and gate lists -/

/-- A segment from its two words (R190). -/
def segmentOf (a b : Word) : Segment := ⟨lowSigned a, bitsAt a 16 8, bitsAt b 0 16, bitsAt b 16 8⟩

def segmentsOf : List Word → List Segment
  | a :: b :: rest => segmentOf a b :: segmentsOf rest
  | _ => []

/-- A profile copy: the header's two words and its eight segment entries (section 4.2). -/
def profileOf (count band : Word) (segments : List Word) : Profile :=
  ⟨count.toNat, band.toNat, segmentsOf segments⟩

/-- The active profile of a bed record (offsets 32 to 49). -/
def activeProfile (record : List Word) : Profile :=
  profileOf (record.getD 32 0) (record.getD 33 0) ((record.drop 34).take 16)

/-- The pending header and segment words of a bed record (offsets 50, 51 and 54 to 69). -/
def pendingWords (record : List Word) : List Word :=
  record.getD 50 0 :: record.getD 51 0 :: (record.drop 54).take 16

/-- The pending profile of a bed record. -/
def pendingProfile (record : List Word) : Profile :=
  profileOf (record.getD 50 0) (record.getD 51 0) ((record.drop 54).take 16)

def Segment.inRange (g : Segment) : Bool :=
  decide (-400 ≤ g.target ∧ g.target ≤ 700 ∧ g.rate ≤ 100 ∧ g.hold ≤ 4320 ∧ g.guarded ≤ 1)

/-- The profile test (R76): NO_PROFILE, BAD_SEGMENT or good (NONE). -/
def profileTest (p : Profile) : Code :=
  if p.count < 1 ∨ 8 < p.count ∨ p.band < 10 ∨ 200 < p.band then .noProfile
  else if (p.segments.take p.count).all Segment.inRange then .none else .badSegment

/-- The entries of a gate list copy: two words each (R190). -/
def gateEntriesOf : List Word → List GateEntry
  | a :: b :: rest => ⟨a.toNat, b⟩ :: gateEntriesOf rest
  | _ => []

/-- The gate test (R101): COUNT, DURATION, BEDS or good (NONE), on a copy's 65 words. -/
def gateTest (record : List Word) : Code :=
  let count := (record.getD 0 0).toNat
  let entries := (gateEntriesOf (record.drop 1)).take count
  if 32 < count then .count
  else if ¬ entries.all (fun e => decide (1 ≤ e.duration ∧ e.duration ≤ 3600)) then .duration
  else if ¬ entries.all (fun e => decide (bitsAt e.openSet 24 8 = 0)) then .beds
  else .none

/-- The entries a good copy runs. -/
def gateEntries (record : List Word) : List GateEntry :=
  (gateEntriesOf (record.drop 1)).take (record.getD 0 0).toNat

/-! ### Records as the copies give them -/

/-- A mix entry from its words (R190, section 1.6). -/
def mixOf (record : List Word) (uses : Nat) : Mix :=
  { datum := (record.getD 0 0).toInt, release := (record.getD 1 0).toNat, lift := (record.getD 2 0).toNat,
    dispatch := (record.getD 3 0).toNat, overheat := (record.getD 4 0).toInt, useCount := uses }

/-- "Each field must lie in its range, and the release, lift and dispatch thresholds must stand in
that order" (R20). -/
def Mix.inRange (m : Mix) : Bool :=
  decide (-200 ≤ m.datum ∧ m.datum ≤ 100 ∧ 1 ≤ m.release ∧ m.release ≤ m.lift ∧ m.lift ≤ m.dispatch ∧
    500 ≤ m.overheat ∧ m.overheat ≤ 800)

def mixWords (m : Mix) : List (Nat × Word) :=
  [(0, .ofSigned m.datum), (1, .ofCount m.release), (2, .ofCount m.lift), (3, .ofCount m.dispatch),
   (4, .ofSigned m.overheat)]

/-- A mix copy with some of its words replaced: as it would stand after a transfer. -/
def Mix.withWords (m : Mix) (words : List (Nat × Word)) : Mix :=
  let w (o : Nat) : Word := (wordFor words o).getD ((wordFor (mixWords m) o).getD 0)
  mixOf [w 0, w 1, w 2, w 3, w 4] m.useCount

/-- A claim word: move number, piece and operation (R190). -/
def Claim.word (c : Claim) : Word :=
  Word.ofCount (c.move % 65536 + 65536 * (c.piece % 512) + 2147483648 * c.op.toNat)

def claimOf (w : Word) : Claim := ⟨bitsAt w 0 16, if w.getLsbD 31 then .place else .pick, bitsAt w 16 9⟩

/-- A list of numbers as words, padded with 0. -/
def padded (xs : List Word) (n : Nat) : List Word := (xs ++ List.replicate n 0).take n

/-- The stack and claim list words of a slot record (offsets 3 to 18), written whole by every group that writes the slot.
R117, R119 and R190 do not say what the stack words above the height and the claim words past the list length hold: they are
written 0 (DESIGN CHOICE, log entry 80). -/
def slotWords (x : Slot) : List (Nat × Word) :=
  indexed 3 (Word.ofCount x.stack.length :: padded (x.stack.map Word.ofCount) 6 ++
    Word.ofCount x.claims.length :: padded (x.claims.map Claim.word) 8)

/-- The words of a piece record that a move or a landing can change: state, maturity, zone, slot and
claiming move. The maturity is 0 while IN_BED (section 6.1). -/
def pieceLiveWords (p : Piece) : List (Nat × Word) :=
  [(0, .ofCount p.state.toNat), (4, .ofCount p.maturity), (5, .ofCount p.zone), (6, .ofCount p.slot), (7, .ofCount p.claim)]

/-- The words that free a piece record: the state FREE, slot, claiming move and hold absent (R112). -/
def pieceFreeWords : List (Nat × Word) := [(0, 0), (6, 0), (7, 0), (8, 0)]

/-- A new piece record (R9): everything but the request word and the last request result. -/
def pieceCastWords (p : Piece) (castTime : Word) : List (Nat × Word) :=
  [(0, .ofCount PieceState.inBed.toNat), (1, packBytes p.bed p.position), (2, packBytes p.length p.mix),
   (3, castTime), (4, 0), (5, .ofCount p.zone), (6, 0), (7, 0), (8, 0)]

/-- A roster entry's live words (R54). -/
def probeWords (e : ProbeEntry) : List (Nat × Word) :=
  [(4, .ofCount e.state.toNat), (5, .ofCount e.miss), (6, .ofSigned e.core), (7, .ofSigned e.air),
   (8, e.readingTime), (9, .ofCount e.outcome.toNat)]

/-- "position zone NONE is hexadecimal 80000000" (R190). -/
def zoneWord : Option Int → Word
  | none => 0x80000000#32
  | some z => .ofSigned z

/-- The span word: lo in bits 0 to 7, hi in bits 8 to 15, EMPTY in bit 31 (R190). -/
def spanWord : Option ZoneRun → Word
  | none => 0x80000000#32
  | some r => packBytes r.lo r.hi

/-- The permits word, bits 0 to 3 (R190). -/
def permitsWord (p : ByPermit Bool) : Word :=
  Word.ofCount (p.travelWest.toNat + 2 * p.travelEast.toNat + 4 * p.hoistLower.toNat + 8 * p.hoistRaise.toNat)

/-- The code of an arm result: NONE, ARMED, STOP_ACTIVE, FAULT_LATCHED or MEMORY, numbered as R190
numbers every result. -/
def armResultWord (r : Code) : Word := .ofCount r.toNat

/-- The monitor's live words of a crane record (R132). -/
def monitorWords (m : Monitor) : List (Nat × Word) :=
  [(5, boolWord m.armed), (6, boolWord m.homed), (7, .ofSigned m.count), (8, zoneWord m.posZone),
   (9, spanWord m.span), (10, permitsWord m.permits), (11, armResultWord m.armResult)]

/-- The Move Controller's live words of a crane record: link state and head move (R155, R159). -/
def cabWords (c : CabSide) : List (Nat × Word) :=
  [(12, .ofCount c.link.toNat), (13, .ofCount (c.queue.headD 0))]

/-- The words of a move table entry but for the control word and the new destination (R190). The
remembered phase is 0 in every state but SUSPENDED. -/
def moveWords (m : Move) : List (Nat × Word) :=
  [(0, .ofCount m.number), (1, .ofCount m.kind.toNat), (2, .ofCount m.crane.val), (3, .ofCount m.piece),
   (4, .ofCount m.dest), (5, .ofCount m.waitLimit), (6, .ofCount m.travelLimit), (7, .ofCount m.source),
   (8, packBytes (m.pickZone.getD 255) m.placeZone), (9, .ofCount m.serial), (10, .ofCount m.state.toNat),
   (11, .ofCount ((m.remembered.map MoveState.toNat).getD 0)), (12, .ofCount m.endReason.toNat), (15, m.ctrlResult)]

/-- The cure's live words of a bed record: sub-state, segment and phase, setpoint, hold done (R87). -/
def cureWords (c : CureContext) : List (Nat × Word) :=
  [(19, .ofCount c.sub.toNat), (20, packBytes c.segment c.phase.toNat), (21, .ofSigned c.setpoint),
   (22, .ofCount c.holdDone), (26, .ofCount c.duty)]

/-- The alarm block's own words: state, condition set, raise time (R190). -/
def alarmWords (base : Nat) (a : AlarmBlock) : List (Nat × Word) :=
  [(base, .ofCount a.state.toNat), (base + 1, a.conditions), (base + 2, a.raiseTime)]

/-- The record that holds an alarm block and the block's offset in it (R190). -/
def alarmPlace : AlarmRef → WordRef
  | .bed b => ⟨.bed, b.val, 70⟩
  | .probe n => ⟨.roster, n, 10⟩
  | .crane c => ⟨.crane, c.val, 14⟩
  | .loop l => ⟨.directory, 0, 41 + 4 * l.val⟩

/-- The alarm block a word belongs to, and the word's offset in the block. -/
def alarmAt (w : WordRef) : Option (AlarmRef × Nat) :=
  match w.region with
  | .bed =>
    if 70 ≤ w.offset ∧ w.offset ≤ 73 then (fin? 24 w.index).map (fun b => (.bed b, w.offset - 70)) else none
  | .roster => if 10 ≤ w.offset ∧ w.offset ≤ 13 then some (.probe w.index, w.offset - 10) else none
  | .crane =>
    if 14 ≤ w.offset ∧ w.offset ≤ 17 then (fin? 2 w.index).map (fun c => (.crane c, w.offset - 14)) else none
  | .directory =>
    if 41 ≤ w.offset ∧ w.offset ≤ 56 then
      (fin? 4 ((w.offset - 41) / 4)).map (fun l => (.loop l, (w.offset - 41) % 4))
    else none
  | _ => none

/-- The directory's memory fault words (R45, R190). -/
def faultWords : Option FaultRecord → List (Nat × Word)
  | none => [(37, 0), (38, 0), (39, 0)]
  | some f =>
    [(37, .ofCount f.addr),
     (38, Word.ofCount (f.kind.toNat + 256 * f.source.toNat + 65536 * f.read.toNat)), (39, f.time)]

/-- The directory's refusal record words (R32). -/
def refusalWords (r : RefusalRecord) : List (Nat × Word) :=
  [(34, .ofCount r.addr), (35, .ofCount r.reason.toNat), (36, r.time)]

/-- The directory's lifecycle, load result and safe cause words (R183, R190). A bad copy letter (R108) above 65,535 does
not fit the 16-bit index of the load result word: its low 16 bits stand there (DESIGN CHOICE, log entry 59). -/
def lifecycleWords (d : DirectoryUnit) : List (Nat × Word) :=
  [(27, .ofCount d.lifecycle.toNat), (28, .ofCount d.loadCode.toNat),
   (29, Word.ofCount (d.loadRegion % 256 + 256 * (d.loadIndex % 65536))), (30, .ofCount d.safeCause.toNat)]

/-- The swap state: PENDING, READING or NONE (section 5.1, R190). -/
def swapWord (u : SteamUnit) : Word := if u.swapPending then 1 else if u.swapRead then 2 else 0

/-- The directory's gate words: active copy, entry index, swap state (R190). -/
def gateWords (u : SteamUnit) : List (Nat × Word) :=
  [(31, if u.active = .a then 0 else 1), (32, .ofCount u.index), (33, swapWord u)]

/-- A notice's four words (section 9.1). -/
def Notice.words (n : Notice) : List Word :=
  [.ofCount n.kind.toNat, Word.ofCount (n.index % 65536 + 65536 * n.cls.toNat), n.detail, n.time]

end Sys2Proof.Machine
end

