-- ==== Sys2Proof/Machine/Path.lean ====
section
/-! DEFINITION. The part's own transfers (section 2.7): refresh slots, own reads, bursts, the hold
set, commit group slots; and the memory-port arbiter (section 2.8). -/

namespace Sys2Proof.Machine

def State.withPath (s : State) (p : PathUnit) : State := { s with path := p }

/-! ### Refreshes and own reads -/

/-- Whether an item is the unsent refresh slot of a record. -/
def OwnItem.isSlotOf (r : Region) (index : Nat) : OwnItem → Bool
  | .refresh x => decide (x.region = r ∧ x.index = index)
  | _ => false

/-- The queue with a refresh handed: joined to the record's unsent slot, else a slot at the tail (R40). -/
def joinQueue (r : Region) (index : Nat) (words : List (Nat × Word)) : List OwnItem → List OwnItem
  | [] => [.refresh ⟨r, index, joinWords [] words⟩]
  | .refresh x :: rest =>
    if x.region = r ∧ x.index = index then .refresh { x with words := joinWords x.words words } :: rest
    else .refresh x :: joinQueue r index words rest
  | item :: rest => item :: joinQueue r index words rest

/-- "the lifecycle state allows own writes of its records": in SAFE, of the directory alone (R48). -/
def State.allowsWrite (s : State) (r : Region) : Bool := decide (s.dir.lifecycle ≠ .safe ∨ r = .directory)

/-- Hand a refresh (R40). In SAFE only refreshes of the directory are admitted (R48); before the
directory has been read it is not refreshed, and no record of a region not yet known is (R47, R183). -/
def refresh (r : Region) (index : Nat) (words : List (Nat × Word)) (s : State) : State :=
  if words = [] ∨ s.allowsWrite r = false ∨ (r = .directory ∧ s.dir.dirRead = false) ∨ (s.window? r).isNone then s
  else { s with path := { s.path with queue := joinQueue r index words s.path.queue } }

/-- Hand a refresh of directory words. -/
def refreshDirectory (words : List (Nat × Word)) (s : State) : State := refresh .directory 0 words s

/-- Ask for an own read, which enters the hold set and the queue's tail (R41). SAFE admits none (R48). -/
def askRead (rd : OwnRead) (s : State) : State :=
  if s.safe then s else { s with path := { s.path with queue := s.path.queue ++ [.read rd] } }

/-- Ask for an own read of one record. -/
def askRecord (purpose : ReadFor) (r : Region) (index : Nat) (s : State) : State :=
  askRead ⟨purpose, r, index * r.recLen, r.recLen⟩ s

/-- Hand the Path Unit an event that produces a commit group (R38). -/
def handJob (j : Job) (s : State) : State := { s with path := { s.path with outbox := s.path.outbox ++ [j] } }

/-! ### Bursts (R37) -/

/-- Cut a run of words into bursts of up to 16. -/
def writeBursts (r : Region) : Nat → Nat → List (Option Word) → List Burst
  | 0, _, _ => []
  | _, _, [] => []
  | fuel + 1, first, ws => .write r first (ws.take 16) :: writeBursts r fuel (first + 16) (ws.drop 16)

def readBursts (r : Region) : Nat → Nat → Nat → List Burst
  | 0, _, _ => []
  | _, _, 0 => []
  | fuel + 1, first, n => .read r first (min n 16) :: readBursts r fuel (first + 16) (n - 16)

/-- The bursts of a refresh slot, lowest address first: each covers the words within 16 of the
lowest one left (log entry 12). -/
def slotBursts (r : Region) (index : Nat) : Nat → List (Nat × Word) → List Burst
  | 0, _ => []
  | _, [] => []
  | fuel + 1, w :: rest =>
    let near := w :: rest.filter (fun x => decide (x.1 < w.1 + 16))
    let far := rest.filter (fun x => ¬ decide (x.1 < w.1 + 16))
    let sp := recordSpan r index near
    .write r sp.first sp.words :: slotBursts r index fuel far

/-- The bursts of an item, in the order of issue (R37). -/
def OwnItem.bursts : OwnItem → List Burst
  | .group g => g.spans.flatMap (fun sp => writeBursts sp.region sp.words.length sp.first sp.words)
  | .refresh x => slotBursts x.region x.index x.words.length x.words
  | .read rd => readBursts rd.region rd.length rd.first rd.length

/-! ### The hold set and the slots (R28, R38) -/

def Group.touches (g : Group) (x : RecRef) : Bool := g.spans.any (fun sp => sp.touches x)

/-- Whether an item holds a record: a group or an own read, never a refresh. -/
def OwnItem.holds (x : RecRef) : OwnItem → Bool
  | .group g => g.touches x
  | .refresh _ => false
  | .read rd => rd.touches x

/-- Whether a record is in the hold set (R28). The items from which it follows are the queue, the
item being served, the groups not yet completed and the reads not yet handed (log entry 3). -/
def State.held (s : State) (x : RecRef) : Bool :=
  s.path.queue.any (OwnItem.holds x) ||
  (match s.path.current with | some c => c.item.holds x | none => false) ||
  s.path.answered.any (fun g => g.touches x) ||
  s.path.returned.any (fun r => r.read.touches x)

/-- Whether an item is a swap read (R101). -/
def OwnItem.isSwap : OwnItem → Bool
  | .read rd => decide (rd.purpose = .swap)
  | _ => false

/-- Whether a read is dropped as SAFE is entered at whatever stage it has reached: a take's (R95), a swap's (R109). -/
def ReadFor.droppedInSafe : ReadFor → Bool
  | .take _ => true
  | .swap => true
  | _ => false

/-- Whether an item is such a read. -/
def OwnItem.droppedInSafe : OwnItem → Bool
  | .read rd => rd.purpose.droppedInSafe
  | _ => false

/-- Whether a swap read is in the hold set (R28, R101). -/
def State.swapReadOut (s : State) : Bool :=
  s.path.queue.any OwnItem.isSwap ||
  (match s.path.current with | some c => c.item.isSwap | none => false) ||
  s.path.returned.any (fun r => decide (r.read.purpose = .swap))

def OwnItem.isGroup : OwnItem → Bool
  | .group _ => true
  | _ => false

/-- Commit groups in flight: admitted and not yet completed (R39). -/
def State.groupsInFlight (s : State) : Nat :=
  (s.path.queue.filter OwnItem.isGroup).length +
  (match s.path.current with | some c => if c.item.isGroup then 1 else 0 | none => 0) +
  s.path.answered.length

/-- Slots in use: the groups in flight and a slot reserved for a twin copy (R33). -/
def State.slotsUsed (s : State) : Nat :=
  s.groupsInFlight + (match s.host.up with | some u => if u.reserved then 1 else 0 | none => 0)

/-- The place of a party on the slot waiting list, or behind it (R38: a freed slot goes to the head). -/
def State.slotPlace (s : State) (p : Party) : Nat := s.path.slotWait.findIdx (fun q => decide (q = p))

/-- Whether a slot is there for a party: each party before it on the list takes one first (R38). -/
def State.slotFor (s : State) (p : Party) : Bool :=
  decide (s.slotsUsed + s.slotPlace p < Config.groupSlots)

def State.joinSlotWait (s : State) (p : Party) : State :=
  if p ∈ s.path.slotWait then s else { s with path := { s.path with slotWait := s.path.slotWait ++ [p] } }

def State.leaveSlotWait (s : State) (p : Party) : State :=
  { s with path := { s.path with slotWait := s.path.slotWait.filter (fun q => decide (q ≠ p)) } }

/-! ### Host transfers and the records they touch -/

def transferLength (t : HostTransfer) : Nat :=
  match t.op with
  | .read n => n
  | .write ws => ws.length

def transferIsWrite (t : HostTransfer) : Bool :=
  match t.op with
  | .read _ => false
  | .write _ => true

/-- The words of a transfer that lie in windows, with their places (R26). -/
def transferPlaces (t : HostTransfer) (ws : List Window) : List WordRef :=
  (countFrom t.addr (transferLength t)).filterMap (locate ws)

/-- "A host transfer touches a record when any of its words lies in that record's window" (R26). -/
def transferRecords (t : HostTransfer) (ws : List Window) : List RecRef :=
  (transferPlaces t ws).map (fun w => ⟨w.region, w.index⟩)

/-- Whether a taken host transfer (TAKEN, ISSUED or FINISHING) touches a record of the spans (R28). -/
def State.takenTouches (s : State) (spans : List Span) : Bool :=
  match s.host.up with
  | some u =>
    decide (u.stage ≠ .waiting) && (transferRecords u.xfer s.path.windows).any (fun x => spans.any (fun sp => sp.touches x))
  | none => false

/-! ### What keeps a transfer waiting (R27, R28, R33, R36) -/

/-- Whether a burst writes a word of a record. -/
def Burst.writesWord (w : WordRef) : Burst → Bool
  | .write r first ws => decide (r = w.region) && Span.writes ⟨r, first, ws⟩ (w.index * r.recLen + w.offset)
  | .read _ _ _ => false

/-- Whether a refresh that carries a new value of a word is still to be issued (R36). -/
def State.unsentRefresh (s : State) (w : WordRef) : Bool :=
  s.path.queue.any (fun item =>
    match item with
    | .refresh x => decide (x.region = w.region ∧ x.index = w.index) && (wordFor x.words w.offset).isSome
    | _ => false) ||
  (match s.path.current with | some c => !c.item.isGroup && c.rest.any (Burst.writesWord w) | none => false)

/-- Whether a word is an alarm state word. -/
def isAlarmState (w : WordRef) : Bool := match alarmAt w with | some (_, 0) => true | _ => false

/-- Whether a waiting READ waits for a refresh of an alarm state word it covers (R36). -/
def State.readWaits (s : State) (t : HostTransfer) : Bool :=
  (transferPlaces t s.path.windows).any (fun w => isAlarmState w && s.unsentRefresh w)

/-- Whether a region is a gate list copy. -/
def Region.isGate (r : Region) : Bool := decide (r = .gateA ∨ r = .gateB)

/-- Whether a WRITE waits for a swap read: "a host write to either copy cannot be taken while a swap read
holds the inactive copy" (R97). -/
def State.swapHolds (s : State) (t : HostTransfer) : Bool :=
  transferIsWrite t && (transferRecords t s.path.windows).any (fun x => x.region.isGate) && s.swapReadOut

/-- Whether a waiting transfer touches a record in the hold set (R28), or waits for a swap read (R97). -/
def State.transferHeld (s : State) (t : HostTransfer) : Bool :=
  (transferRecords t s.path.windows).any (fun x => s.held x) || s.swapHolds t

/-- Whether nothing keeps a WAITING transfer waiting, so that examining it takes it: no hold, no refresh of an alarm
state word that a READ covers, no wait for a commit group slot (R27). -/
def State.waitsFree (s : State) (u : UpTransfer) : Bool :=
  decide (u.stage = .waiting) && !s.transferHeld u.xfer && decide (Party.hostWrite ∉ s.path.slotWait) &&
  (transferIsWrite u.xfer || !s.readWaits u.xfer)

/-- Whether the port holds a transfer that examining would take and that touches a record of the spans: the taking and
the admission of a group of these spans "can meet on the same record in either order" (R28). -/
def State.meetsTaking (s : State) (spans : List Span) : Bool :=
  match s.host.up with
  | some u =>
    s.waitsFree u && (transferRecords u.xfer s.path.windows).any (fun x => spans.any (fun sp => sp.touches x))
  | none => false

/-! ### The arbiter (R42) -/

/-- Whether the host stream has a candidate: the transfer taken and not yet issued. -/
def State.hostCandidate (s : State) : Bool :=
  match s.host.up with
  | some u => decide (u.stage = .taken)
  | none => false

/-- The own stream's next burst with the path after its issue. While a works restart waits only for
items not yet begun, none is begun (R49). -/
def ownIssue (s : State) : Option State :=
  match s.path.current with
  | some c =>
    match c.rest with
    | b :: rest =>
      some (s.withPath { s.path with port := .own b, portMs := 0, current := some { c with rest := rest }, lastServed := .own })
    | [] => none
  | none =>
    match s.path.queue with
    | item :: queue =>
      if s.dir.restartPending ∧ s.groupsInFlight = 0 then none
      else
        match item.bursts with
        | b :: rest =>
          some (s.withPath { s.path with port := .own b, portMs := 0, current := some ⟨item, rest, []⟩, queue := queue, lastServed := .own })
        | [] => none
    | [] => none

/-- Issue the host transfer. -/
def hostIssue (s : State) : State :=
  match s.host.up with
  | some u =>
    { s with host := { s.host with up := some { u with stage := .issued } },
             path := { s.path with port := .host, portMs := 0, lastServed := .host } }
  | none => s

/-- "When both have one, the stream the arbiter served last yields, and the other is issued" (R42). -/
def arbitrate (s : State) : State :=
  if s.path.port = .free then
    if s.hostCandidate then
      match ownIssue s with
      | some t => if s.path.lastServed = .host then t else hostIssue s
      | none => hostIssue s
    else (ownIssue s).getD s
  else s

/-! ### Failures and refusals at the record of the directory -/

/-- Offer a failure to the memory fault record (R43, R45). -/
def offerFault (addr : Nat) (kind : FaultCode) (source : FaultSource) (s : State) : State :=
  match s.path.fault with
  | some _ => s
  | none =>
    let f : FaultRecord := ⟨addr, kind, source, false, s.dir.worksTime⟩
    refreshDirectory (faultWords (some f)) { s with path := { s.path with fault := some f } }

/-- Change the memory fault record and refresh it into the directory (R45). -/
def setFault (f : Option FaultRecord) (s : State) : State :=
  refreshDirectory (faultWords f) { s with path := { s.path with fault := f } }

/-- Overwrite the refusal record and mirror it into the directory (R32). -/
def recordRefusal (addr : Nat) (reason : Code) (s : State) : State :=
  let r : RefusalRecord := ⟨addr, reason, s.dir.worksTime⟩
  refreshDirectory (refusalWords r) { s with path := { s.path with refusal := r } }

/-- The word address at which a burst begins. -/
def State.burstAddr (s : State) : Burst → Nat
  | .write r first _ => s.regionBase r + first
  | .read r first _ => s.regionBase r + first

end Sys2Proof.Machine
end

