-- ==== Sys2Proof/Machine/Flags.lean ====
section
/-! DEFINITION. The flags of the part that tell the host something: notices and their ring (R175 to
R177), the ATTN output (R178), and the alarm states with their conditions (R179, R180). -/

namespace Sys2Proof.Machine

def State.withNotices (s : State) (n : NoticeUnit) : State := { s with notices := n }

/-! ### Notices (R175, R176) -/

/-- "the ring has room: the entry after the assigned head is not the tail copy" (R175). -/
def NoticeUnit.hasRoom (u : NoticeUnit) : Bool :=
  decide (0 < u.size ∧ (u.assignedHead + 1) % u.size ≠ u.tail)

/-- Give a notice the entry at the assigned head (R175). -/
def NoticeUnit.assign (u : NoticeUnit) (n : Notice) : NoticeUnit :=
  { u with writeList := u.writeList ++ [n], assignedHead := (u.assignedHead + 1) % u.size }

def Notice.sameSource (a b : Notice) : Bool := decide (a.kind = b.kind ∧ a.cls = b.cls ∧ a.index = b.index)

/-- Fold a notice into the pending set, or put it at the set's tail (R175). -/
def foldNotice (n : Notice) : List Notice → List Notice
  | [] => [n]
  | m :: rest => if m.sameSource n then n :: rest else m :: foldNotice n rest

/-- Place a stamped notice (R175). -/
def NoticeUnit.place (u : NoticeUnit) (running : Bool) (n : Notice) : NoticeUnit :=
  if running ∧ u.waiting = [] ∧ u.hasRoom then u.assign n else { u with waiting := foldNotice n u.waiting }

/-- Hand the Notice Unit a notice; it is stamped with the works time (R175). -/
def post (kind : NoticeKind) (cls : SourceClass) (index : Nat) (detail : Word) (s : State) : State :=
  { s with notices := s.notices.place s.running ⟨kind, cls, index, detail, s.dir.worksTime⟩ }

/-- Release the pending set into the ring until the ring is full or the set is empty (R177). -/
def NoticeUnit.release (u : NoticeUnit) : Nat → NoticeUnit
  | 0 => u
  | fuel + 1 =>
    match u.waiting with
    | [] => u
    | n :: rest => if u.hasRoom then ({ u with waiting := rest }.assign n).release fuel else u

def releasePending (s : State) : State := { s with notices := s.notices.release s.notices.waiting.length }

/-- Hand a notice group while the write list is not empty, the group mark is clear and the lifecycle
is RUNNING (R176). The group itself is formed when it is admitted. -/
def handNotices (s : State) : State :=
  if s.notices.writeList ≠ [] ∧ s.notices.groupMark = false ∧ s.running then
    handJob .notices { s with notices := { s.notices with groupMark := true } }
  else s

/-- The notice group: the first notices of the write list, at most 8, "as one span of ring entries, or
two spans when the run wraps past entry N−1", and the notice head word (R176). -/
def NoticeUnit.group (u : NoticeUnit) : List Span × Completion :=
  let carried := u.writeList.take Config.noticesPerGroup
  let start := u.writtenHead
  let room := u.size - start
  let head := (start + carried.length) % u.size
  let entries (ns : List Notice) : List (Option Word) := (ns.flatMap Notice.words).map some
  let first : Span := ⟨.noticeRing, start * 4, entries (carried.take room)⟩
  let second : List Span := if carried.length ≤ room then [] else [⟨.noticeRing, 0, entries (carried.drop room)⟩]
  (first :: second ++ [⟨.directory, 26, [some (.ofCount head)]⟩], .notices carried.length head)

/-- The completion of a notice group (R176). -/
def noticesDone (count head : Nat) (s : State) : State :=
  { s with notices := { s.notices with writeList := s.notices.writeList.drop count, writtenHead := head, groupMark := false } }

/-! ### The tail and ATTN (R177, R178) -/

/-- How a write of the tail word is judged: TAIL, or that it passes (NONE) (R177). -/
def NoticeUnit.tailVerdict (u : NoticeUnit) (t : Nat) : Code :=
  if u.size ≤ t then .tail
  else if (u.writtenHead + u.size - u.tail) % u.size < (t + u.size - u.tail) % u.size then .tail
  else .none

/-- Take a tail request (R177). -/
def takeTail (t : Nat) (s : State) : State :=
  releasePending { s with notices := { s.notices with tail := t } }

/-- ATTN: "active while the written head differs from the tail copy, while the pending set is not
empty, or while the lifecycle is not RUNNING" (R178). -/
def State.attnWanted (s : State) : Bool :=
  decide (s.notices.writtenHead ≠ s.notices.tail ∨ s.notices.waiting ≠ [] ∨ s.dir.lifecycle ≠ .running)

def evaluateAttn (s : State) : State := { s with dir := { s.dir with attn := s.attnWanted } }

/-! ### Alarm blocks (R179, R180) -/

/-- The alarm block; a roster index past the roster names none. -/
def State.alarm (s : State) : AlarmRef → AlarmBlock
  | .bed b => (s.bed b).alarm
  | .probe n => match s.roster[n]? with | some e => e.alarm | none => AlarmBlock.reset
  | .crane c => (s.crane c).alarm
  | .loop l => (s.loop l).alarm

def State.putAlarm (s : State) (r : AlarmRef) (a : AlarmBlock) : State :=
  match r with
  | .bed b => s.setBed b { s.bed b with alarm := a }
  | .probe n =>
    match s.roster[n]? with
    | some e => { s with roster := s.roster.set n { e with alarm := a } }
    | none => s
  | .crane c => s.setCrane c { s.crane c with alarm := a }
  | .loop l => s.setLoop l { s.loop l with alarm := a }

/-- The source of a block's notices (section 9.3). -/
def alarmSource : AlarmRef → SourceClass × Nat
  | .bed b => (.bed, b.val + 1)
  | .probe n => (.probe, n)
  | .crane c => (.crane, c.val)
  | .loop l => (.loop, l.val)

/-- Change an alarm block; "Each change of state, set or raise time is written by a refresh of the
record that holds the block" (R179). -/
def setAlarm (r : AlarmRef) (a : AlarmBlock) (s : State) : State :=
  let words := changedWords (alarmWords (alarmPlace r).offset (s.alarm r)) (alarmWords (alarmPlace r).offset a)
  refresh (alarmPlace r).region (alarmPlace r).index words (s.putAlarm r a)

/-- A condition arises (R179): in CLEAR, SEEN and ACKED the alarm becomes RAISED with a notice, in
RAISED it stays. A condition already in the set is not a new one. While no alarm block exists there is none
to raise (R174). -/
def conditionArises (r : AlarmRef) (bit : Nat) (s : State) : State :=
  let a := s.alarm r
  if s.notices.alarmsBuilt = false ∨ a.conditions.getLsbD bit then s
  else if a.state = .raised then setAlarm r { a with conditions := setBit a.conditions bit } s
  else
    post .alarmRaised (alarmSource r).1 (alarmSource r).2 (.ofCount bit)
      (setAlarm r ⟨.raised, setBit a.conditions bit, s.dir.worksTime⟩ s)

/-- A condition is gone (R179): when the last one goes, an ACKED alarm becomes CLEAR with a notice. Section 9.3 shows a
dash for the detail of ALARM_CLEARED: the word is 0 (DESIGN CHOICE, log entry 66). -/
def conditionGone (r : AlarmRef) (bit : Nat) (s : State) : State :=
  let a := s.alarm r
  if a.conditions.getLsbD bit then
    let set := clearBit a.conditions bit
    if set = 0 ∧ a.state = .acked then
      post .alarmCleared (alarmSource r).1 (alarmSource r).2 0 (setAlarm r { a with state := .clear, conditions := set } s)
    else setAlarm r { a with conditions := set } s
  else s

/-- Report a condition as present or gone. -/
def reportCondition (r : AlarmRef) (bit : Nat) (present : Bool) (s : State) : State :=
  if present then conditionArises r bit s else conditionGone r bit s

/-- A read event (R180): a RAISED alarm read as RAISED becomes SEEN. -/
def readEvent (r : AlarmRef) (given : Word) (s : State) : State :=
  let a := s.alarm r
  if a.state = .raised ∧ given = .ofCount AlarmState.raised.toNat then setAlarm r { a with state := .seen } s else s

/-- The alarm part of an acknowledgement taken while the alarm is SEEN (R180); the detail of ALARM_CLEARED is 0 (log
entry 66). -/
def acknowledgeAlarm (r : AlarmRef) (s : State) : State :=
  let a := s.alarm r
  if a.conditions = 0 then
    post .alarmCleared (alarmSource r).1 (alarmSource r).2 0 (setAlarm r { a with state := .clear } s)
  else setAlarm r { a with state := .acked } s

/-- How a write of an acknowledge word is judged (R180): a reason, or NONE when it passes. -/
def ackVerdict (a : AlarmBlock) (value : Word) : Code :=
  if value = 0 then .none
  else if value = 1 then
    match a.state with
    | .seen => .none
    | .raised => .notSeen
    | .clear => .state
    | .acked => .state
  else .range

end Sys2Proof.Machine
end

