-- ==== Sys2Proof/Machine/Receiver.lean ====
section
/-! DEFINITION. The serial lines (R59 to R62, R158, R160, R191): the characters the part sends, and the
receiver that takes the line sample by sample, 16 to a bit. -/

namespace Sys2Proof.Machine

/-! ### What the part sends (R191) -/

/-- The data bits of a character, least significant first. -/
def dataBits (v : BitVec 8) : List Bool := (countFrom 0 8).map v.getLsbD

/-- A probe loop character in line order: start, data, mark, stop (R191). -/
def loopFrame (v : BitVec 8) (mark : Bool) : List Bool := false :: dataBits v ++ [mark, true]

/-- A cab link character in line order: start, data, stop (section 8.4). -/
def cabFrame (v : BitVec 8) : List Bool := false :: dataBits v ++ [true]

/-- The two characters of a poll: "an address character carrying the wire address, followed by the command
character READ, value 1" (R59, R191). -/
def pollBits (address : Nat) : List Bool :=
  loopFrame (.ofNat 8 address) true ++ loopFrame (.ofNat 8 Config.readCommand) false

/-- The break: the line held low for 14 bit times (R59). -/
def lineBreak : List Bool := List.replicate Config.breakBits false

/-- The levels of what a loop transmits, one for each bit time (R59, R66). -/
def LoopTx.levels : LoopTx → List Bool
  | .released => []
  | .poll bits => bits
  | .startSequence => lineBreak ++ List.replicate Config.idleBits true
  | .breakOnly => lineBreak

/-- A block's characters with its check byte, "the sum of characters 1 to 7, modulo 256" (section 8.4). -/
def withCheck (chars : List (BitVec 8)) : List (BitVec 8) := chars ++ [chars.foldl (· + ·) 0]

/-- The eight characters of an instruction to a cab (R160, R191). -/
def Instruction.block (i : Instruction) : List (BitVec 8) :=
  withCheck [.ofNat 8 i.kind.toNat, .ofNat 8 i.tag, .ofNat 8 i.zone, .ofNat 8 (i.piece / 256), .ofNat 8 i.piece,
    .ofNat 8 i.purpose.toNat, 0]

/-- The levels of a cab block on the line, one for each bit time: "eight characters back to back" (R160). -/
def Sending.levels (x : Sending) : List Bool := x.block.flatMap cabFrame

/-! ### One character (R60, R158) -/

/-- The three middle samples of one bit. -/
structure BitSamples where
  a : Bool
  b : Bool
  c : Bool
deriving DecidableEq, Repr

/-- The majority of the three middle samples. -/
def BitSamples.majority (x : BitSamples) : Bool := (x.a && x.b) || (x.a && x.c) || (x.b && x.c)

/-- Whether the three samples of a bit disagree. -/
def BitSamples.disagrees (x : BitSamples) : Bool := !((x.a == x.b) && (x.b == x.c))

/-- The middle samples of a character, three to a bit. -/
def bitsOf : List Bool → List BitSamples
  | a :: b :: c :: rest => ⟨a, b, c⟩ :: bitsOf rest
  | _ => []

/-- Data bits, least significant first. -/
def dataByte (bits : List BitSamples) : BitVec 8 :=
  (indexed 0 bits).foldl (fun acc x => if x.2.majority then acc ||| (1#8 <<< x.1) else acc) 0

/-- The character read from the bits of a frame: start, eight data bits, on a probe loop the mark, and the
stop bit last (R60, R158). -/
def charOf (bits : List BitSamples) : RxChar :=
  { data := dataByte ((bits.drop 1).take 8),
    mark := decide (bits.length = Config.loopBits) && ((bits[9]?).map BitSamples.majority).getD false,
    noise := bits.any BitSamples.disagrees,
    framing := !(((bits.getLast?).map BitSamples.majority).getD true) }

/-! ### The receiver, sample by sample (R60, R62, R158) -/

/-- Whether a sample, counted from 0 at the falling edge, is one of the three in the middle of its bit: the
8th, 9th and 10th of its 16 (log entry 36). -/
def middleSample (n : Nat) : Bool :=
  let k := n % Config.samplesPerBit
  decide (7 ≤ k ∧ k ≤ 9)

/-- The sample at which the start bit is confirmed or the edge discarded: the last of its middle samples. -/
def confirmSample : Nat := 9

/-- "If fewer than two read low, the edge is discarded" (R60). The middle samples stand latest first. -/
def edgeDiscarded : List Bool → Bool
  | c :: b :: a :: _ => BitSamples.majority ⟨a, b, c⟩
  | _ => false

/-- Whether a start bit has been confirmed and its character is being read. -/
def Receiver.confirmed : Receiver → Bool
  | .inCharacter n _ => decide (confirmSample < n)
  | _ => false

/-- One sample of the line, with the character it ends. The gap timer starts at the end of a character, or
for one with its framing flag when the line next reads high, and stops when a start bit is confirmed (R62). R62 says so
of the loops: that a cab link's gap starts alike is the model's choice (DESIGN CHOICE, log entry 56). -/
def LineReceiver.sample (frameBits : Nat) (rx : LineReceiver) (high : Bool) : LineReceiver × Option RxChar :=
  match rx.mode with
  | .waitForHigh => (⟨if high then .lookForStart else .waitForHigh, high, 0⟩, none)
  | .lookForStart => (⟨if rx.high && !high then .inCharacter 1 [] else .lookForStart, high, rx.gap + 1⟩, none)
  | .inCharacter n middle =>
    let middle := if middleSample n then high :: middle else middle
    if n = confirmSample ∧ edgeDiscarded middle = true then (⟨.lookForStart, high, rx.gap + 1⟩, none)
    else if n + 1 < Config.samplesPerBit * frameBits then
      (⟨.inCharacter (n + 1) middle, high, if n < confirmSample then rx.gap + 1 else 0⟩, none)
    else
      let ch := charOf (bitsOf middle.reverse)
      (⟨if ch.framing && !high then .waitForHigh else .lookForStart, high, 0⟩, some ch)

/-- What a receiver has heard: its state, the characters of the block in progress or ended, whether its gap
has ended the block, and the samples behind that. -/
structure Heard where
  rx : LineReceiver
  chars : List RxChar
  ended : Bool
  rest : List Bool
deriving DecidableEq, Repr

/-- The form of a serial line: bits of a character, bit times of the gap, and the characters of a block that
are kept (R60, R62, R158). -/
structure LineForm where
  bits : Nat
  gap : Nat
  keep : Nat
deriving DecidableEq, Repr

def loopForm : LineForm := ⟨Config.loopBits, Config.loopGap, Config.replyChars⟩

def cabForm : LineForm := ⟨Config.cabBits, Config.cabGap, Config.blockChars⟩

/-- A character joins its block; one past those that are kept is discarded (R62, R158). -/
def LineForm.join (f : LineForm) (chars : List RxChar) (ch : Option RxChar) : List RxChar :=
  match ch with
  | some ch => if chars.length < f.keep then chars ++ [ch] else chars
  | none => chars

/-- Take samples until the gap ends the block in progress or they run out (R60, R62, R158). -/
def LineForm.listen (f : LineForm) : LineReceiver → List RxChar → List Bool → Heard
  | rx, chars, [] => ⟨rx, chars, false, []⟩
  | rx, chars, high :: rest =>
    let heard := rx.sample f.bits high
    let chars := f.join chars heard.2
    if chars ≠ [] ∧ Config.samplesPerBit * f.gap < heard.1.gap then ⟨heard.1, chars, true, rest⟩
    else f.listen heard.1 chars rest

/-- The receiver after the part's own transmission: a character that the transmission cut is given up, and
the line is as it last read (R59; log entry 36). -/
def LineReceiver.afterOwn (rx : LineReceiver) : LineReceiver := { rx with mode := .lookForStart, gap := 0 }

/-- The receiver of a line that is read at nothing, at its level (R50, R151). -/
def LineReceiver.atLevel (rx : LineReceiver) : LineReceiver := { LineReceiver.reset with high := rx.high }

end Sys2Proof.Machine
end

