-- ==== Sys2Proof/Machine/Probes.lean ====
section
/-! DEFINITION. The Probe Loop Controller (R50 to R72): probe states and outcomes, the receiver, poll
slots, the line, and the readings it offers. -/

namespace Sys2Proof.Machine

/-! ### Entries (R53 to R58) -/

/-- Bit numbers of a roster entry's conditions, in the order of section 9.4. -/
def lostBit : Nat := 0
def framingBit : Nat := 1
/-- Bit number of a loop's condition. -/
def stuckBit : Nat := 0

/-- Change an entry and hand a refresh of its changed live words (R54). -/
def setProbe (n : Nat) (e' : ProbeEntry) (s : State) : State :=
  match s.roster[n]? with
  | none => s
  | some e => refresh .roster n (changedWords (probeWords e) (probeWords e')) { s with roster := s.roster.set n e' }

/-- A reading of the probe, signed tenths of a degree. -/
structure ProbeReading where
  core : Int
  air : Int
deriving DecidableEq, Repr

/-- What a poll ends with, as it is handed to its entry. -/
inductive Outcome where
  | good (r : ProbeReading)
  | miss (code : PollOutcome)
  | framing
deriving DecidableEq, Repr

/-- A GOOD outcome (R55). -/
def takeGood (n : Nat) (e : ProbeEntry) (r : ProbeReading) (s : State) : State :=
  let e := { e with core := r.core, air := r.air, readingTime := s.dir.worksTime, outcome := .good, miss := 0 }
  match e.state with
  | .suspect =>
    if 2 ≤ e.good + 1 then setProbe n { e with state := .online, good := 0 } s
    else setProbe n { e with good := e.good + 1 } s
  | .lost => conditionGone (.probe n) lostBit (setProbe n { e with state := .suspect, good := 1 } s)
  | _ => setProbe n e s

/-- A miss (R56). -/
def takeMiss (n : Nat) (e : ProbeEntry) (code : PollOutcome) (s : State) : State :=
  let e := { e with outcome := code, miss := min (e.miss + 1) 255, good := 0 }
  match e.state with
  | .online => setProbe n { e with state := .suspect } s
  | .suspect =>
    if 3 ≤ e.miss then conditionArises (.probe n) lostBit (setProbe n { e with state := .lost } s)
    else setProbe n e s
  | _ => setProbe n e s

/-- A FRAMING outcome (R57). -/
def takeFraming (n : Nat) (e : ProbeEntry) (s : State) : State :=
  let barred := setProbe n { e with state := .barred, outcome := .framing, miss := 0, good := 0 } s
  let cleared := if e.state = .lost then conditionGone (.probe n) lostBit barred else barred
  conditionArises (.probe n) framingBit cleared

/-- Whether an entry is polled: SUSPECT, ONLINE or LOST (R64). -/
def ProbeState.polled : ProbeState → Bool
  | .suspect => true
  | .online => true
  | .lost => true
  | _ => false

/-- Hand an outcome to an entry (R63). -/
def takeOutcome (n : Nat) (o : Outcome) (s : State) : State :=
  match s.roster[n]? with
  | none => s
  | some e =>
    if e.state.polled then
      match o with
      | .good r => takeGood n e r s
      | .miss code => takeMiss n e code s
      | .framing => takeFraming n e s
    else s

/-- Mark the poll of an entry abandoned on every loop that polls it (R53). -/
def abandonPoll (n : Nat) (s : State) : State :=
  forLoops (fun l s =>
    match (s.loop l).poll with
    | some p => if p.entry = n then s.setLoop l { s.loop l with poll := some { p with abandoned := true } } else s
    | none => s) s

/-- An enable request taken (R53). -/
def takeEnable (n : Nat) (on : Bool) (s : State) : State :=
  match s.roster[n]? with
  | none => s
  | some e =>
    if on then
      if e.state = .offline then setProbe n { e with state := .suspect, miss := 0, good := 0, outcome := .none } s
      else s
    else
      match e.state with
      | .barred => handJob (.enableFix n) s
      | .offline => s
      | _ =>
        let off := setProbe n { e with state := .offline, miss := 0, good := 0 } s
        abandonPoll n (if e.state = .lost then conditionGone (.probe n) lostBit off else off)

/-- The group that puts an enable word right: ON when the entry is not OFFLINE, OFF when it is (R53). -/
def enableFixSpans (n : Nat) (s : State) : List Span :=
  match s.roster[n]? with
  | none => []
  | some e => [recordSpan .roster n [(3, if e.state = .offline then 0 else 1)]]

/-- A release event (R58). -/
def releaseProbe (n : Nat) (s : State) : State :=
  match s.roster[n]? with
  | none => s
  | some e =>
    if e.state = .barred then
      conditionGone (.probe n) framingBit (setProbe n { e with state := .suspect, miss := 0, good := 0 } s)
    else s

/-! ### The reply (R62, R63) -/

/-- A signed 16-bit value from its two characters, high byte first (section 3.4). -/
def signed16 (hi lo : BitVec 8) : Int := (hi ++ lo : BitVec 16).toInt

def readingInRange (t : Int) : Bool := decide (-400 ≤ t ∧ t ≤ 1200)

/-- The outcome of a reply block (R63), from its first six characters (R62). -/
def judgeReply (address : Nat) (chars : List RxChar) : Outcome :=
  let six := chars.take 6
  if six.any (fun c => c.framing) then .framing
  else
    match six with
    | [echo, coreHi, coreLo, airHi, airLo, check] =>
      let core := signed16 coreHi.data coreLo.data
      let air := signed16 airHi.data airLo.data
      if six.any (fun c => c.mark) then .miss .collision
      else if six.any (fun c => c.noise) then .miss .noise
      else if echo.data.toNat ≠ address then .miss .echo
      else if check.data ≠ echo.data + coreHi.data + coreLo.data + airHi.data + airLo.data then .miss .check
      else if ¬ (readingInRange core ∧ readingInRange air) then .miss .range
      else .good ⟨core, air⟩
    | _ => .miss .partialReply

/-! ### Poll slots (R59, R64, R65) -/

/-- The next entry of a loop: the first polled one after the pointer, wrapping (R64). -/
def nextPolled (roster : List ProbeEntry) (l : Nat) (pointer : Option Nat) : Option Nat :=
  let polled := ((indexed 0 roster).filter (fun x => decide (x.2.loop = l) && x.2.state.polled)).map (·.1)
  match polled.find? (fun i => match pointer with | none => true | some p => decide (p < i)) with
  | some i => some i
  | none => polled.head?

/-- Begin the poll of an entry (R59). -/
def beginPoll (l : Fin 4) (n : Nat) (e : ProbeEntry) (s : State) : State :=
  s.setLoop l { s.loop l with pointer := some n, poll := some ⟨n, false, false, []⟩, tx := .poll (pollBits e.address) }

/-- A slot event taken on a loop with no poll in flight, or on a STUCK or idle loop (R64, R66, R68). -/
def takeSlot (l : Fin 4) (s : State) : State :=
  match (s.loop l).line, nextPolled s.roster l.val (s.loop l).pointer with
  | .running, some n =>
    match s.roster[n]? with
    | some e => beginPoll l n e s
    | none => s
  | .stuck, some n => takeOutcome n (.miss .stuck) (s.setLoop l { s.loop l with pointer := some n })
  | _, _ => s

/-- A poll slot event: a RUNNING loop with a poll in flight marks the slot pending (R64). -/
def pollSlot (l : Fin 4) (s : State) : State :=
  match (s.loop l).line, (s.loop l).poll with
  | .running, some _ => s.setLoop l { s.loop l with slotPending := true }
  | _, _ => takeSlot l s

/-- A poll ends: its outcome is handed unless it was abandoned, and a pending slot is taken at once
(R64, R65). -/
def endPoll (l : Fin 4) (p : Poll) (o : Outcome) (s : State) : State :=
  let freed := s.setLoop l { s.loop l with poll := none, replyMs := 0, slotPending := false }
  let handed := if p.abandoned then freed else takeOutcome p.entry o freed
  if (s.loop l).slotPending then takeSlot l handed else handed

/-- End the poll in flight that waits for its reply, if there is one. -/
def endWaitingPoll (l : Fin 4) (o : Outcome) (s : State) : State :=
  match (s.loop l).poll with
  | some p => if p.sent then endPoll l p o s else s
  | none => s

/-- The end of what a loop transmits: the line is released, and the receiver takes it again (R59). -/
def Loop.release (x : Loop) : Loop := { x with tx := .released, rx := x.rx.afterOwn }

/-- The poll's transmission ends and its reply window opens (R59, R61). -/
def pollSent (l : Fin 4) (s : State) : State :=
  match (s.loop l).poll with
  | some p =>
    if p.sent then s
    else s.setLoop l ({ s.loop l with poll := some { p with sent := true }, replyMs := 0 }).release
  | none => s

/-- Whether the start bit of a reply's first character has been confirmed (R61). -/
def Loop.replyBegun (x : Loop) : Bool :=
  x.rx.mode.confirmed || (match x.poll with | some p => decide (p.chars ≠ []) | none => false)

/-- No start bit within 20 ms (R61): with one confirmed first "the expiry does not happen". -/
def windowExpiry (l : Fin 4) (s : State) : State :=
  if (s.loop l).replyBegun then s else endWaitingPoll l (.miss .timeout) s

/-- A reply block has ended by its gap: the poll ends with its outcome (R62, R63). -/
def replyEnded (l : Fin 4) (p : Poll) (block : List RxChar) (s : State) : State :=
  match s.roster[p.entry]? with
  | some e => endPoll l p (judgeReply e.address block) s
  | none => endPoll l p (.miss .partialReply) s

/-- The line timers after samples: "Each sample read high" puts the low timer of a RUNNING loop back to 0
(R67), each read low the high timer of a STUCK one (R68). -/
def Loop.timedBy (x : Loop) (samples : List Bool) : Loop :=
  match x.line with
  | .running => { x with lowTimer := if samples.any (fun v => v) then 0 else x.lowTimer }
  | .stuck => { x with highTimer := if samples.any (fun v => !v) then 0 else x.highTimer }
  | _ => x

/-- The characters the poll in flight has received; without a poll that waits they are discarded (R60). -/
def Loop.received (x : Loop) : List RxChar :=
  match x.poll with
  | some p => if p.sent then p.chars else []
  | none => []

/-- The loop after samples up to the end of a block, its characters handed to the poll in flight (R60). -/
def Loop.hears (x : Loop) (samples : List Bool) (h : Heard) : Loop :=
  { (x.timedBy (samples.take (samples.length - h.rest.length))) with
    rx := h.rx, poll := x.poll.map (fun p => if p.sent then { p with chars := h.chars } else p) }

/-- The line of a loop, sample by sample (R60, R62). "While the controller transmits, its receiver takes
nothing from the line" (R59). -/
def hearLoop (l : Fin 4) : Nat → List Bool → State → State
  | 0, _, s => s
  | fuel + 1, samples, s =>
    let x := s.loop l
    if x.tx ≠ .released then s.setLoop l { x with rx := { x.rx with high := samples.getLastD x.rx.high } }
    else
      let h := loopForm.listen x.rx x.received samples
      let heard := s.setLoop l (x.hears samples h)
      if h.ended then
        hearLoop l fuel h.rest
          (match x.poll with
          | some p => if p.sent then replyEnded l { p with chars := h.chars } h.chars heard else heard
          | none => heard)
      else heard

/-- What the loop's receiver takes from the line; a reply block in it ends by its gap (R60 to R63). -/
def probeReply (l : Fin 4) (samples : List Bool) (s : State) : State := hearLoop l (samples.length + 1) samples s

/-! ### The line (R66 to R68) -/

/-- Start a loop in IDLE-START: it sends its start sequence (R66). -/
def startLoop (l : Fin 4) (s : State) : State :=
  match (s.loop l).line with
  | .idleWaiting => s.setLoop l { s.loop l with line := .idleSending, tx := .startSequence }
  | _ => s

/-- The idle character of the start sequence ends (R66). -/
def startSequenceDone (l : Fin 4) (s : State) : State :=
  match (s.loop l).line with
  | .idleSending => s.setLoop l ({ s.loop l with line := .running, lowTimer := 0, highTimer := 0 }).release
  | _ => s

/-- The low timer passes 100 ms: the loop becomes STUCK (R67). -/
def becomeStuck (l : Fin 4) (s : State) : State :=
  match (s.loop l).line with
  | .running =>
    let x := s.loop l
    let stuck := s.setLoop l { x with line := .stuck, tx := .released, poll := none, replyMs := 0, slotPending := false,
                                      highTimer := 0, breakTimer := 0 }
    let ended :=
      match x.poll with
      | some p => if p.abandoned then stuck else takeOutcome p.entry (.miss .stuck) stuck
      | none => stuck
    conditionArises (.loop l) stuckBit ended
  | _ => s

/-- The high timer reaches 100 ms: the STUCK condition is gone and the loop is started at once (R68). -/
def recoverLoop (l : Fin 4) (s : State) : State :=
  match (s.loop l).line with
  | .stuck =>
    conditionGone (.loop l) stuckBit
      (s.setLoop l { s.loop l with line := .idleSending, tx := .startSequence, highTimer := 0 })
  | _ => s

/-- The break retry timer reaches 5 s (R68). -/
def retryBreak (l : Fin 4) (s : State) : State :=
  match (s.loop l).line with
  | .stuck => s.setLoop l { s.loop l with tx := .breakOnly, breakTimer := 0 }
  | _ => s

/-! ### Readings for other blocks (R69, R11) -/

/-- "its assignment copy names that assignment, its probe state is ONLINE, and the works time at that
moment, less its reading time, is at most 10 s" (R69). R69 does not say what the difference is when the works time has wrapped
between the two (R189), or when a loaded reading time lies ahead of it: it is taken modulo 2^32 (DESIGN CHOICE, log
entry 79). -/
def ProbeEntry.qualifies (e : ProbeEntry) (a : Assignment) (now : Word) : Bool :=
  decide (e.assignment = a ∧ e.state = .online ∧ (now - e.readingTime).toNat ≤ Config.readingAge)

def State.qualifying (s : State) (a : Assignment) : List ProbeEntry :=
  s.roster.filter (fun e => e.qualifies a s.dir.worksTime)

/-- The ONLINE entries of a bed, without regard to age (R11, R69). -/
def State.onlineFor (s : State) (b : Fin 24) : List ProbeEntry :=
  s.roster.filter (fun e => decide (e.assignment = .bed b ∧ e.state = .online))

/-- The yard temperature, when an entry qualifies for YARD (R69). -/
def State.yardTemperature (s : State) : Option Int :=
  match s.qualifying .yard with
  | [] => none
  | es => some (meanDown (es.map (·.air)))

end Sys2Proof.Machine
end

