-- ==== Sys2Proof/Machine/Steam.lean ====
section
/-! DEFINITION. The Steam Allocator (R96 to R109): gate lists and their swap, admission rounds, valves. -/

namespace Sys2Proof.Machine

def State.steamBed (s : State) (b : Fin 24) : SteamBed := (s.bed b).steam

def State.setSteamBed (s : State) (b : Fin 24) (x : SteamBed) : State := s.setBed b { s.bed b with steam := x }

def State.withSteam (s : State) (u : SteamUnit) : State := { s with steam := u }

/-- The heat control as a notice source (section 9.3). -/
def postHeat (kind : NoticeKind) (detail : Word) (s : State) : State := post kind .heat 0 detail s

/-! ### Gate entries (R98) -/

/-- The present entry, when gating is on. -/
def SteamUnit.entry? (u : SteamUnit) : Option GateEntry := if u.index = 0 then none else u.entries[u.index - 1]?

/-- Whether a bed lies in the present open set, or gating is off (R98). -/
def SteamUnit.opens (u : SteamUnit) (b : Fin 24) : Bool :=
  match u.entry? with
  | some e => e.openSet.getLsbD b.val
  | none => true

/-- Close a bed's valve for the rest of the cycle (R106). -/
def closeValve (b : Fin 24) (s : State) : State :=
  s.setSteamBed b { s.steamBed b with closed := true, valve := false }

/-- A gate change closes each bed the new open set lacks (R98, R101, R106). -/
def closeShut (s : State) : State := forBeds (fun b s => if s.steam.opens b then s else closeValve b s) s

/-- The terms of a valve that is on (R106). -/
def State.valveWanted (s : State) (b : Fin 24) : Bool :=
  let x := s.steamBed b
  x.running && s.running && s.steam.opens b && !x.closed && decide (s.steam.valveStep < x.granted)

/-- Drive every valve output (R106). -/
def driveValves (s : State) : State :=
  forBeds (fun b s => s.setSteamBed b { s.steamBed b with valve := s.valveWanted b }) s

/-- A step of the valve cycle has passed: "the valve is on from the start of the cycle while the valve
step is below the granted duty, and off from the step equal to it" (R106). A valve that is off stays off. R106 counts
the steps since a round and says nothing of the step where no cycle runs: the model counts on in every lifecycle state
and before the first round, and holds at 199 past the end of a cycle; no valve is affected (DESIGN CHOICE, log
entry 58). -/
def valveStep (s : State) : State :=
  let stepped := s.withSteam { s.steam with valveStep := min (s.steam.valveStep + 1) (Config.fullDuty - 1) }
  forBeds (fun b s => s.setSteamBed b { s.steamBed b with valve := (s.steamBed b).valve && s.valveWanted b })
    stepped

/-- The active copy's index after a count of entries becomes the running list: 1, or 0 with gating off. -/
def SteamUnit.start (u : SteamUnit) (entries : List GateEntry) : SteamUnit :=
  { u with entries := entries, index := if entries = [] then 0 else 1,
           secondsLeft := match entries with | e :: _ => e.duration | [] => 0 }

/-- The region of a gate list copy. -/
def GateCopy.region : GateCopy → Region
  | .a => .gateA
  | .b => .gateB

def GateCopy.other : GateCopy → GateCopy
  | .a => .b
  | .b => .a

/-- The copy letter as a code: "copy A 0, copy B 1" (R190). -/
def GateCopy.toNat : GateCopy → Nat
  | .a => 0
  | .b => 1

/-- Change the gate state and hand a refresh of the given directory words, whether they change or not. -/
def putGate (words : List (Nat × Word)) (u : SteamUnit) (s : State) : State := refreshDirectory words (s.withSteam u)

/-- Change the gate state and refresh the directory words that change (R99 to R101). -/
def setGate (u : SteamUnit) (s : State) : State := putGate (changedWords (gateWords s.steam) (gateWords u)) u s

/-- The gate entry index, refreshed "at each expiry" (R98). -/
def indexWords (u : SteamUnit) : List (Nat × Word) := [(32, .ofCount u.index)]

/-- The swap state word, refreshed in every case of R101 and on leaving RUNNING (R109). -/
def swapWords (u : SteamUnit) : List (Nat × Word) := [(33, swapWord u)]

/-- A pending swap asks for its read of the inactive copy (R101). -/
def beginSwapRead (s : State) : State :=
  askRecord .swap s.steam.active.other.region 0
    (setGate { s.steam with swapPending := false, swapRead := true, cancelled := false } s)

/-- The present entry expires (R98), and its index is refreshed. At the wrap a pending swap starts its read
(R101), unless a read is still in flight: an owner has at most one read of a record in progress (R41; log entry
23). -/
def gateExpiry (s : State) : State :=
  if s.running ∧ s.steam.index ≠ 0 then
    let wraps := decide (s.steam.entries.length ≤ s.steam.index)
    let next := if wraps then 1 else s.steam.index + 1
    let left := match s.steam.entries[next - 1]? with | some e => e.duration | none => 0
    let u := { s.steam with index := next, secondsLeft := left }
    let moved := closeShut (putGate (indexWords u) u s)
    if wraps ∧ moved.steam.swapPending ∧ moved.steam.swapRead = false then beginSwapRead moved else moved
  else s

/-! ### Heat control requests (R99, R100) -/

/-- How a write of the heat control word is judged: a reason, or NONE when it passes (R99). -/
def SteamUnit.heatVerdict (u : SteamUnit) (value : Word) : Code :=
  if value = 0 then .none
  else if value = 1 then (if u.swapPending then .swapPending else .none)
  else if value = 2 then
    (if u.swapPending ∨ (u.swapRead ∧ u.cancelled = false) then .none else .state)
  else .range

def takeSwap (s : State) : State := setGate { s.steam with swapPending := true } s

def takeCancel (s : State) : State :=
  if s.steam.swapPending then setGate { s.steam with swapPending := false } s
  else if s.steam.swapRead then s.withSteam { s.steam with cancelled := true }
  else s

/-- A failed heat control request (R100). -/
def heatFailed (s : State) : State := postHeat .gateSwapRefused (.ofCount Code.memory.toNat) s

/-- The swap read returns, or fails (R101). A read that carries the cancelled mark and fails gives MEMORY: R101
gives a detail for each and no order between them (DESIGN CHOICE, log entry 44). -/
def swapExamined (data : Option (List Word)) (s : State) : State :=
  if s.steam.swapRead then
    let done := { s.steam with swapRead := false, cancelled := false }
    let refused (reason : Code) : State := postHeat .gateSwapRefused (.ofCount reason.toNat) (putGate (swapWords done) done s)
    match data with
    | none => refused .memory
    | some record =>
      if s.steam.cancelled then refused .cancelled
      else
        match gateTest record with
        | .none =>
          let u := { done with active := s.steam.active.other }.start (gateEntries record)
          postHeat .gateSwapped (.ofCount u.active.toNat) (closeShut (putGate (gateWords u) u s))
        | reason => refused reason
  else s

/-! ### The admission round (R102 to R104, R107) -/

/-- "While the input is active at that moment, the budget is half the boiler budget, rounded down" (R102). -/
def State.roundBudget (s : State) (lowFire : Bool) : Nat := if lowFire then s.dir.budget / 2 else s.dir.budget

/-- "A bed is eligible when its running flag is set, its demand is above 0, and it lies in the open set
present when the round is taken, or gating is off" (R103). -/
def State.eligible (s : State) (b : Fin 24) : Bool :=
  (s.steamBed b).running && decide (0 < (s.steamBed b).demand) && s.steam.opens b

/-- The eligible list: by priority, then by number counted cyclically from the rotation start (R103). -/
def State.eligibleList (s : State) : List (Fin 24) :=
  sortBy (fun b => (s.steamBed b).priority * 24 + (b.val + 24 - (s.steam.rotation - 1)) % 24)
    ((List.finRange 24).filter (fun b => s.eligible b))

/-- "the smaller of the demand and 200 times the remaining budget divided by the rating, rounded down" (R104). -/
def grantOf (demand rating remaining : Nat) : Nat :=
  if rating = 0 then demand else min demand (Config.fullDuty * remaining / rating)

/-- "the valve rating times d divided by 200 and rounded up" (R104). -/
def drawOf (rating duty : Nat) : Nat := (rating * duty + (Config.fullDuty - 1)) / Config.fullDuty

/-- The grants in the order of the list, from a remaining budget (R104). -/
def grantsFrom (s : State) : Nat → List (Fin 24) → List (Fin 24 × Nat)
  | _, [] => []
  | remaining, b :: rest =>
    let g := grantOf (s.steamBed b).demand (s.steamBed b).rating remaining
    (b, g) :: grantsFrom s (remaining - drawOf (s.steamBed b).rating g) rest

/-- A bed's starved-round count after a round it was eligible in (R107). -/
def starve (b : Fin 24) (grant : Nat) (s : State) : State :=
  let x := s.steamBed b
  if x.demand ≤ grant then s.setSteamBed b { x with starved := 0, armed := true }
  else
    let n := min (x.starved + 1) Config.starvedRounds
    if n = Config.starvedRounds ∧ x.armed then
      post .starved .bed (b.val + 1) (detail2 x.demand grant) (s.setSteamBed b { x with starved := n, armed := false })
    else s.setSteamBed b { x with starved := n }

/-- Give a bed its grant for the new cycle: closed mark cleared, the word refreshed when it changes (R104). -/
def giveGrant (b : Fin 24) (grant : Nat) (s : State) : State :=
  let x := s.steamBed b
  let given := s.setSteamBed b { x with granted := grant, closed := false }
  if x.granted = grant then given else refresh .bed b.val [(27, .ofCount grant)] given

def grantFor (grants : List (Fin 24 × Nat)) (b : Fin 24) : Nat :=
  match grants.find? (fun g => decide (g.1 = b)) with
  | some g => g.2
  | none => 0

/-- The admission round (R101 to R104, R107): with gating off a pending swap starts its read first. The STARVED notices
of one round are posted in the order of the eligible list, and the refreshes of the granted duties are handed in bed
number order: R107 and R104 give no order (DESIGN CHOICE, log entry 49). -/
def admissionRound (lowFire : Bool) (s : State) : State :=
  if s.running then
    let sampled := s.withSteam { s.steam with lowFire := lowFire }
    let read := if sampled.steam.index = 0 ∧ sampled.steam.swapPending ∧ sampled.steam.swapRead = false
      then beginSwapRead sampled else sampled
    let list := read.eligibleList
    let grants := grantsFrom read (read.roundBudget lowFire) list
    let starved := list.foldl (fun s b => starve b (grantFor grants b) s) read
    let given := forBeds (fun b s => giveGrant b (grantFor grants b) s) starved
    driveValves (given.withSteam { given.steam with valveStep := 0, rotation := given.steam.rotation % 24 + 1 })
  else s

/-! ### What the Curing Controller and the Bed Unit hand (R105, R107) -/

/-- A sub-state change: entering RUNNING sets the running flag, leaving it clears the flag and closes
the valve (R105, R106). A bed that enters RUNNING in a cycle gets no valve before the next round's
grant, since its grant is 0 or its closed mark is set; the output follows R106 either way. -/
def setRunning (b : Fin 24) (running : Bool) (s : State) : State :=
  if running then
    let set := s.setSteamBed b { s.steamBed b with running := true }
    set.setSteamBed b { set.steamBed b with valve := set.valveWanted b }
  else if (s.steamBed b).running then
    closeValve b (s.setSteamBed b { s.steamBed b with running := false })
  else s

def setDemand (b : Fin 24) (demand : Nat) (s : State) : State :=
  s.setSteamBed b { s.steamBed b with demand := demand }

/-- The cure end event: demand 0, the starved count 0 and the armed flag set (R92, R105, R107). -/
def cureEnded (b : Fin 24) (s : State) : State :=
  s.setSteamBed b { s.steamBed b with demand := 0, starved := 0, armed := true }

/-- SAFE: every valve off, every closed mark set, the swap gone and its word refreshed (R109). -/
def steamSafe (s : State) : State :=
  let u := { s.steam with swapPending := false, swapRead := false, cancelled := false }
  putGate (swapWords u) u (forBeds closeValve s)

end Sys2Proof.Machine
end

