-- ==== Sys2Proof/Machine/Curing.lean ====
section
/-! DEFINITION. The Curing Controller (R73 to R95): temperatures and sight, flags and sub-states, the
segment advance, takes, and maturity. -/

namespace Sys2Proof.Machine

def State.cureUnit (s : State) (b : Fin 24) : CuringUnit := (s.bed b).cure

def State.setCureUnit (s : State) (b : Fin 24) (x : CuringUnit) : State := s.setBed b { s.bed b with cure := x }

def State.setContext (s : State) (b : Fin 24) (c : CureContext) : State :=
  s.setCureUnit b { s.cureUnit b with context := some c }

def State.setTake (s : State) (b : Fin 24) (t : TakeStage) : State := s.setCureUnit b { s.cureUnit b with take := t }

/-- Bit numbers of a bed's conditions, in the order of section 9.4. -/
def blindBit : Nat := 0
def overheatBit : Nat := 1

/-- Whether a take is pending for a bed (R75). -/
def TakeStage.pending : TakeStage → Bool
  | .none => false
  | _ => true

/-- The stages at which a bed waits at its ended segment: read in flight or later (R78). -/
def TakeStage.waits : TakeStage → Bool
  | .readInFlight => true
  | .formed _ _ => true
  | .resultInFlight => true
  | _ => false

def postBed (kind : NoticeKind) (b : Fin 24) (detail : Word) (s : State) : State := post kind .bed (b.val + 1) detail s

/-! ### Flags and sub-states (R84, R85) -/

/-- "It is HELD when the held flag is set. Otherwise it is BLIND when the blind flag is set, OVERHEAT
when the overheat flag is set, and RUNNING when none is set" (R85). -/
def CureContext.derived (c : CureContext) : SubState :=
  if c.held then .held else if c.blind then .blind else if c.overheat then .overheat else .running

/-- Put a context with its sub-state derived afresh, and hand the Steam Allocator a change (R85). -/
def deriveSub (b : Fin 24) (c : CureContext) (s : State) : State :=
  let sub := c.derived
  let put := s.setContext b { c with sub := sub }
  if sub = c.sub then put else setRunning b (decide (sub = .running)) put

/-- The overheat flag after a control step (R84): judged only when sighted, with 5.0 °C between. -/
def overheatAfter (was sighted : Bool) (core limit : Int) : Bool :=
  if sighted then (if limit < core then true else if core ≤ limit - 50 then false else was) else was

/-- HOLD and RESUME when the Bed Unit forms its result (R13, R85). The Steam Allocator takes the demand at a
control step alone (R105). -/
def cureHold (b : Fin 24) (held : Bool) (s : State) : State :=
  match (s.cureUnit b).context with
  | some c =>
    deriveSub b { c with held := held, duty := if held then 0 else c.duty } s
  | none => s

/-! ### Segments (R81, R82) -/

/-- The current segment of a context. -/
def CureContext.current (c : CureContext) : Segment := (c.profile.segments[c.segment - 1]?).getD ⟨0, 0, 0, 0⟩

/-- Move a setpoint toward a target without passing it (R81). -/
def moveToward (from_ target : Int) (step : Nat) : Int :=
  if from_ ≤ target then min (from_ + step) target else max (from_ - step) target

/-- What an advance leads to. -/
inductive Advance where
  | goes (c : CureContext)
  | ends (c : CureContext)
deriving DecidableEq, Repr

/-- The advance of a segment at a control step (R81). -/
def CureContext.advance (c : CureContext) (air : Int) : Advance :=
  let g := c.current
  match c.phase with
  | .moving =>
    let ramp := c.ramp + g.rate * 10
    let moved := if g.rate = 0 then { c with setpoint := g.target }
      else { c with setpoint := moveToward c.setpoint g.target (ramp / 60), ramp := ramp % 60 }
    if moved.setpoint = g.target then .goes { moved with phase := .holding, ramp := 0 } else .goes moved
  | .holding =>
    let counts := !(decide (g.guarded = 1) && decide (air < g.target - 20))
    let c := if counts then { c with holdDone := c.holdDone + 10 } else c
    if g.hold * 60 ≤ c.holdDone then .ends c else .goes c

/-- A segment is released to the next one, or marks the profile's end (R82). -/
def CureContext.release (c : CureContext) : CureContext :=
  if c.segment < c.profile.count then { c with segment := c.segment + 1, phase := .moving, holdDone := 0, ramp := 0 }
  else { c with ended := true }

/-- The requested duty (R86). -/
def CureContext.wants (c : CureContext) (air : Int) : Nat :=
  match c.sub with
  | .running =>
    let gap := c.setpoint - air
    if (c.profile.band : Int) ≤ gap then Config.fullDuty
    else if gap ≤ 0 then 0
    else (200 * gap / (c.profile.band : Int)).toNat
  | _ => 0

/-! ### The control step (R83 to R88) -/

/-- The beds that hold concrete. -/
def BedState.holdsConcrete : BedState → Bool
  | .empty => false
  | .prepared => false
  | _ => true

/-- Temperatures and sight (R83): the minimum probes are those of the bed record at that moment. -/
def senseBed (b : Fin 24) (s : State) : State :=
  let es := s.qualifying (.bed b)
  let x := s.cureUnit b
  let sighted := decide ((s.recordWord .bed b.val 16).toNat ≤ es.length)
  if es = [] then s.setCureUnit b { x with sighted := sighted }
  else s.setCureUnit b { x with core := meanDown (es.map (·.core)), air := meanDown (es.map (·.air)), sighted := sighted }

def temperatureWords (x : CuringUnit) : List (Nat × Word) := [(23, .ofSigned x.core), (24, .ofSigned x.air)]

/-- Flags, sub-state and conditions of a CURING bed (R84, R85, R88). At a step that changes both flags BLIND is reported
before OVERHEAT: R88 gives no order (DESIGN CHOICE, log entry 50). -/
def judgeFlags (b : Fin 24) (c : CureContext) (s : State) : State :=
  let x := s.cureUnit b
  let limit := (s.mix (s.bed b).unit.mix).overheat
  let c := { c with blind := !x.sighted, overheat := overheatAfter c.overheat x.sighted x.core limit }
  reportCondition (.bed b) overheatBit c.overheat (reportCondition (.bed b) blindBit c.blind (deriveSub b c s))

/-- The advance of a CURING bed, made by the sub-state just derived (R81, R82, R78). -/
def advanceBed (b : Fin 24) (s : State) : State :=
  let x := s.cureUnit b
  match x.context with
  | none => s
  | some c =>
    if (c.sub = .running ∨ c.sub = .overheat) ∧ x.take.waits = false ∧ c.ended = false then
      match c.advance x.air with
      | .goes c' => s.setContext b c'
      | .ends c' =>
        match x.take with
        | .waitingSegmentEnd =>
          askRecord (.take b) .bed b.val ((s.setContext b c').setTake b .readInFlight)
        | _ => s.setContext b c'.release
    else s

/-- The requested duty and the refresh that end a control step of a CURING bed (R86, R87). -/
def closeStep (b : Fin 24) (s : State) : State :=
  let x := s.cureUnit b
  match x.context with
  | none => refresh .bed b.val (temperatureWords x) s
  | some c =>
    let c := { c with duty := c.wants x.air }
    refresh .bed b.val (cureWords c ++ temperatureWords x) (setDemand b c.duty (s.setContext b c))

/-- The control step of one bed up to its refresh (R83). -/
def controlBed (b : Fin 24) (s : State) : State :=
  if (s.cureUnit b).bedState.holdsConcrete then
    let sensed := senseBed b s
    match (sensed.cureUnit b).bedState, (sensed.cureUnit b).context with
    | .curing, some c => closeStep b (advanceBed b (judgeFlags b c sensed))
    | _, _ => refresh .bed b.val (temperatureWords (sensed.cureUnit b)) sensed
  else s

/-- Whether a control step has just ended a bed's profile: its event is to be handed (R82). -/
def newlyEnded (before after : CuringUnit) : Bool :=
  match after.context with
  | some c => c.ended && (match before.context with | some d => !d.ended | none => true)
  | none => false

/-! ### Maturity (R89, R90) -/

/-- The maturity a step leaves: the core above the datum is added, saturating (R89). -/
def maturityAfter (maturity : Nat) (temperature datum : Int) : Nat :=
  if datum < temperature then saturate (maturity + (temperature - datum).toNat) else maturity

/-- The maturity step of one bed (R89). The refresh of the maturity word is handed for every sighted bed, also where the core
is not above the datum and nothing is added: R89 hands it "after adding" (DESIGN CHOICE, log entry 87). -/
def maturityBed (b : Fin 24) (s : State) : State :=
  let x := s.cureUnit b
  if x.bedState.holdsConcrete ∧ x.sighted then
    let m := maturityAfter x.maturity x.core (s.mix (s.bed b).unit.mix).datum
    refresh .bed b.val [(25, .ofCount m)] (s.setCureUnit b { x with maturity := m })
  else s

/-- Whether a bed's maturity meets its mix's release threshold (R14, R17). -/
def State.releaseReached (s : State) (b : Fin 24) : Bool :=
  decide ((s.mix (s.bed b).unit.mix).release ≤ (s.cureUnit b).maturity)

/-! ### Start and end of a cure (R91, R92) -/

/-- The cure context at the start of a cure; its setpoint is the mean of the last air readings of the
entries the Bed Unit counted (R91). -/
def startCure (b : Fin 24) (profile : Profile) (airs : List Int) (s : State) : State :=
  setRunning b true (s.setContext b
    { held := false, blind := false, overheat := false, sub := .running, segment := 1, phase := .moving,
      setpoint := meanDown airs, holdDone := 0, ramp := 0, duty := 0, ended := false, profile := profile })

/-- The cure context is dropped (R92): the Steam Allocator is told, the conditions are gone. -/
def endCure (b : Fin 24) (s : State) : State :=
  let dropped := s.setCureUnit b { s.cureUnit b with context := none }
  let closed := cureEnded b (setRunning b false dropped)
  conditionGone (.bed b) overheatBit (conditionGone (.bed b) blindBit closed)

/-- A take not yet handed as a group is discarded at the end of a cure (R80, R92): DISCARDED is posted,
and the take counts as pending until the Bed Unit's group completes. -/
def discardTake (b : Fin 24) (s : State) : State :=
  match (s.cureUnit b).take with
  | .waitingSegmentEnd => postBed .profileRefused b (.ofCount Code.discarded.toNat) (s.setTake b .discarding)
  | .readInFlight => postBed .profileRefused b (.ofCount Code.discarded.toNat) (s.setTake b .discarding)
  | .formed _ _ => postBed .profileRefused b (.ofCount Code.discarded.toNat) (s.setTake b .discarding)
  | _ => s

/-- The words the controller adds to the Bed Unit's group for a discarded take (R80). -/
def discardWords (t : TakeStage) : List (Nat × Word) :=
  match t with
  | .discarding => [(52, 0), (53, .ofCount Code.discarded.toNat)]
  | _ => []

/-! ### Takes (R77 to R79) -/

/-- A TAKE request taken (R77): pending until the next segment end, or refused with STATE or MEMORY.
A bed whose END_CURE or profile end has dropped its cure has left CURING. -/
def takeRequested (b : Fin 24) (failed : Bool) (s : State) : State :=
  if failed then handJob (.takeRefused b) (s.setTake b (.refusing .memory))
  else
    match (s.cureUnit b).bedState, (s.cureUnit b).context with
    | .curing, some _ => s.setTake b .waitingSegmentEnd
    | _, _ => handJob (.takeRefused b) (s.setTake b (.refusing .state))

/-- The take read returns, or fails (R79): the verdict is kept until its group is admitted. -/
def takeExamined (b : Fin 24) (data : Option (List Word)) (s : State) : State :=
  match (s.cureUnit b).take with
  | .readInFlight =>
    let formed : TakeStage :=
      match data with
      | none => .formed .memory []
      | some record =>
        match profileTest (pendingProfile record) with
        | .none => .formed .taken (pendingWords record)
        | v => .formed v []
    handJob (.takeResult b) (s.setTake b formed)
  | _ => s

/-- The group of a take (R79). TAKEN installs the pending profile; a refused take releases its segment. Section 9.3 shows
a dash for the detail of PROFILE_TAKEN: the word is 0 (DESIGN CHOICE, log entry 66). -/
def takeGroup (b : Fin 24) (s : State) : Option (State × List Span × Completion) :=
  let x := s.cureUnit b
  match x.take, x.context with
  | .formed verdict pending, some c =>
    let result : List (Nat × Word) := [(52, 0), (53, .ofCount verdict.toNat)]
    if verdict = .taken then
      let p := profileOf (pending.getD 0 0) (pending.getD 1 0) (pending.drop 2)
      let c := { c with segment := 1, phase := .moving, holdDone := 0, ramp := 0, profile := p }
      let words := [(20, packBytes 1 Phase.moving.toNat), (22, (0 : Word))] ++ indexed 32 pending ++ result
      some (postBed .profileTaken b 0 ((s.setContext b c).setTake b .resultInFlight),
        [recordSpan .bed b.val words], .take b)
    else
      some (postBed .profileRefused b (.ofCount verdict.toNat) ((s.setContext b c.release).setTake b .resultInFlight),
        [recordSpan .bed b.val result], .take b)
  | _, _ => none

/-- The group of a TAKE that found its bed out of CURING, or failed (R77). -/
def takeRefusedGroup (b : Fin 24) (s : State) : Option (State × List Span × Completion) :=
  match (s.cureUnit b).take with
  | .refusing reason =>
    some (postBed .profileRefused b (.ofCount reason.toNat) (s.setTake b .refused),
      [recordSpan .bed b.val [(52, 0), (53, .ofCount reason.toNat)]], .take b)
  | _ => none

/-- A group that writes the TAKE word NONE has completed: the take ends (R75, R79). -/
def takeDone (b : Fin 24) (s : State) : State := s.setTake b .none

/-- SAFE: a take at any stage is dropped (R95). -/
def curingSafe (s : State) : State := forBeds (fun b s => s.setTake b .none) s

end Sys2Proof.Machine
end

