-- ==== Sys2Proof/Machine/Beds.lean ====
section
/-! DEFINITION. The Bed Unit (R1 to R23): bed states, bed requests from their POST event to their result
group, the events of the concrete, departures, and the lift gate. -/

namespace Sys2Proof.Machine

def State.bedUnit (s : State) (b : Fin 24) : BedUnit := (s.bed b).unit

def State.setBedUnit (s : State) (b : Fin 24) (x : BedUnit) : State := s.setBed b { s.bed b with unit := x }

/-- What forming a group answers: the owner's state after the hand-over, and the group unless there is
none to hand. -/
abbrev Formed := State × Option (List Span × Completion)

/-! ### Counts and bed states (R1, R4, R19) -/

/-- A use count of a mix changes (R1). -/
def changeUse (mix : Nat) (change : Int) (s : State) : State :=
  s.setMix mix { s.mix mix with useCount := ((s.mix mix).useCount + change).toNat }

/-- The Bed Unit changes its state copy and hands it to the Curing Controller, and the use count of the
bed's mix follows when the bed leaves EMPTY or returns to it (R4, R73). -/
def setBedState (b : Fin 24) (new : BedState) (s : State) : State :=
  let old := (s.bedUnit b).state
  let x := s.bed b
  let set := s.setBed b { x with unit := { x.unit with state := new }, cure := { x.cure with bedState := new } }
  if old = .empty ∧ new ≠ .empty then changeUse x.unit.mix 1 set
  else if old ≠ .empty ∧ new = .empty then changeUse x.unit.mix (-1) set
  else set

/-- The change of state a group brings about, for its notice (R4). -/
def stateChange (old new : BedState) : Option (BedState × BedState) := if old = new then none else some (old, new)

/-- BED_STATE (R4), posted when the group that writes the state has completed (section 2.11, step 11). -/
def postBedState (b : Fin 24) (change : Option (BedState × BedState)) (s : State) : State :=
  match change with
  | some (old, new) => postBed .bedState b (detail2 old.toNat new.toNat) s
  | none => s

/-- A piece record that was not FREE has become FREE in memory (R19, R112). -/
def pieceFreed (n : Nat) (s : State) : State :=
  match s.piece? n with
  | some p =>
    let freed := s.setPiece n { p with state := .free, ready := false }
    changeUse p.mix (-1) { freed with freeCount := freed.freeCount + 1 }
  | none => s

/-- A piece copy whose FREE state has been handed for writing (R112). -/
def Piece.freeing (p : Piece) : Piece := { p with state := .freeing, slot := 0, claim := 0, hold := 0 }

def startFreeing (n : Nat) (s : State) : State :=
  match s.piece? n with
  | some p =>
    let set := s.setPiece n p.freeing
    { set with stock := { set.stock with dispatched := set.stock.dispatched.filter (fun m => decide (m ≠ n)) } }
  | none => s

/-! ### Requests up to the formed result (R5 to R16) -/

/-- Whether a request is legal in a bed state (section 1.4, R5). -/
def BedCode.legal (code : BedCode) (state : BedState) (sub : Option SubState) : Bool :=
  match code, state with
  | .prepare, .empty => true
  | .cast, .prepared => true
  | .clear, .prepared => true
  | .startCure, .cast => true
  | .startCure, .standing => true
  | .stand, .cast => true
  | .clear, .cast => true
  | .hold, .curing => decide (sub ≠ some .held)
  | .resume, .curing => decide (sub = some .held)
  | .endCure, .curing => true
  | .detension, .releasable => true
  | _, _ => false

/-- The curing sub-state as the Curing Controller holds it (R5). -/
def State.subState (s : State) (b : Fin 24) : Option SubState := (s.cureUnit b).context.map (·.sub)

/-- How a write of a bed's request word is judged (R5): a reason, or NONE when it passes. -/
def State.bedVerdict (s : State) (b : Fin 24) (value : Nat) : Code :=
  let u := s.bedUnit b
  if 9 < value then .range
  else if u.request ≠ none then .busy
  else
    match BedCode.ofNat? value with
    | none => .none
    | some code =>
      if code.legal u.state (s.subState b) = false then .state
      else if code = .cast ∧ s.freeCount < u.pieceCount then .noRoom
      else .none

/-- Ask for the intake read of a bed record (R6). -/
def askIntake (b : Fin 24) (s : State) : State :=
  match (s.bedUnit b).request with
  | some r =>
    askRecord (.bedIntake b) .bed b.val
      (s.setBedUnit b { s.bedUnit b with request := some { r with stage := .readInFlight } })
  | none => s

/-- A request with its result formed waits for its group (R6). -/
def formResult (b : Fin 24) (r : BedRequest) (s : State) : State :=
  handJob (.bedRequest b) (s.setBedUnit b { s.bedUnit b with request := some { r with stage := .waitingSlot } })

def newRequest (code : BedCode) : BedRequest :=
  { code := code, stage := .waitingRead, setAside := 0, result := .none, pieces := [], toWrite := [], plan := [],
    time := 0, target := .empty }

/-- The POST event of a bed request, or a failed request (R5, R6, R35). A CAST sets its pieces aside;
the intake read waits while a deferred event waits (R7). A failed request has no intake read to wait with, and R7 and R35
do not say whether its result is formed before or after a waiting event is taken: it is formed at once, so that its result
group can go before the event's group (DESIGN CHOICE, log entry 85). -/
def bedPosted (b : Fin 24) (code : BedCode) (failed : Bool) (s : State) : State :=
  let u := s.bedUnit b
  let r := newRequest code
  if failed then formResult b { r with result := .memory } s
  else
    let aside := if code = .cast then u.pieceCount else 0
    let set : State := { s with freeCount := s.freeCount - aside }
    let posted := set.setBedUnit b { u with request := some { r with setAside := aside } }
    if u.deferred = [] then askIntake b posted else posted

/-- The lowest-numbered FREE pieces (R9, R112). -/
def State.freePieces (s : State) (n : Nat) : List Nat :=
  (((indexed 1 s.stock.pieces).filter (fun x => decide (x.2.state = .free))).map (·.1)).take n

def reservePieces (ns : List Nat) (s : State) : State :=
  ns.foldl (fun s n => match s.piece? n with | some p => s.setPiece n { p with state := .reserved } | none => s) s

/-- START_CURE's checks: the active profile, then the probes (R11). -/
def State.cureVerdict (s : State) (b : Fin 24) (record : List Word) : Code :=
  match profileTest (activeProfile record) with
  | .none => if (s.onlineFor b).length < (record.getD 16 0).toNat then .probes else .accepted
  | v => v

/-- Examine a request on its intake read's data (R8 to R16). The bed state is checked when the request is judged at the bus
(R5) and not again here. A START_CURE whose write passed while the event of a reached release waited can thus find the bed
RELEASABLE and move it to CURING, and an END_CURE whose write passed while the end of the profile waited can find the bed
out of CURING and set it to RELEASABLE or STANDING by its maturity: changes that R7 and section 1.3 neither list nor forbid
at an examination (DESIGN CHOICE, log entry 78; HOLD and RESUME: log entry 42). -/
def examineBed (b : Fin 24) (r : BedRequest) (record : List Word) (s : State) : State :=
  let ok := { r with result := Code.accepted }
  match r.code with
  | .cast =>
    let chosen := s.freePieces r.setAside
    formResult b { ok with pieces := chosen, toWrite := chosen, plan := (record.drop 2).take 12, time := s.dir.worksTime }
      (reservePieces chosen s)
  | .startCure =>
    match s.cureVerdict b record with
    | .accepted => formResult b ok (startCure b (activeProfile record) ((s.onlineFor b).map (·.air)) s)
    | v => formResult b { r with result := v } s
  | .hold => formResult b ok (cureHold b true s)
  | .resume => formResult b ok (cureHold b false s)
  | .endCure =>
    let target := if s.releaseReached b then BedState.releasable else .standing
    formResult b { ok with target := target } (discardTake b (endCure b s))
  | .clear =>
    let pieces := (s.bedUnit b).inBed
    formResult b { ok with pieces := pieces, toWrite := sortBy id pieces } (s.setBedUnit b { s.bedUnit b with inBed := [] })
  | _ => formResult b ok s

/-- The intake read returns, or fails (R6). A request that SAFE has dropped is not examined (R23). -/
def bedIntakeDone (b : Fin 24) (data : Option (List Word)) (s : State) : State :=
  match (s.bedUnit b).request with
  | some r =>
    if r.stage = .readInFlight then
      match data with
      | none => formResult b { r with result := .memory, setAside := 0 } { s with freeCount := s.freeCount + r.setAside }
      | some record => examineBed b r record s
    else s
  | none => s

/-! ### The groups of a result (R6, R10, R16) -/

/-- Runs of consecutive numbers of a rising list (R10). -/
def runsOf : List Nat → List (List Nat)
  | [] => []
  | n :: rest =>
    match runsOf rest with
    | (m :: run) :: runs => if m = n + 1 then (n :: m :: run) :: runs else [n] :: (m :: run) :: runs
    | runs => [n] :: runs

/-- The span of a run of consecutive piece records. -/
def runSpan (words : Nat → List (Nat × Word)) (run : List Nat) : Span :=
  ⟨.piece, (run.headD 1 - 1) * Region.recLen .piece, run.flatMap (fun n => laidOut (words n) 0 (Region.recLen .piece))⟩

/-- The copies a CAST gives the piece at a position (R9, R112). -/
def castPiece (b : Fin 24) (mix : Nat) (r : BedRequest) (n : Nat) : Piece :=
  let i := r.pieces.findIdx (fun m => decide (m = n))
  let entry := r.plan.getD i 0
  { state := .inBed, bed := b.val + 1, position := i + 1, length := bitsAt entry 8 8, mix := mix,
    zone := bitsAt entry 0 8, slot := 0, claim := 0, hold := 0, maturity := 0, ready := false, request := none }

/-- A piece's copies take the values its new record gets; a request word keeps its own state. -/
def castInto (b : Fin 24) (mix : Nat) (r : BedRequest) (n : Nat) (s : State) : State :=
  match s.piece? n with
  | some p => s.setPiece n { castPiece b mix r n with request := p.request }
  | none => s

/-- The words an accepted request writes into the bed record (R8 to R16). -/
def acceptedWords (b : Fin 24) (r : BedRequest) (new : BedState) (s : State) : List (Nat × Word) :=
  let state : Nat × Word := (18, .ofCount new.toNat)
  match r.code with
  | .cast =>
    [state, (29, r.time), (25, 0), (28, .ofCount r.pieces.length), (26, 0), (27, 0)]
  | .startCure => state :: (match (s.cureUnit b).context with | some c => cureWords c | none => [])
  | .hold =>
    match (s.cureUnit b).context with
    | some c => [(19, .ofCount c.sub.toNat), (26, .ofCount c.duty)]
    | none => []
  | .resume =>
    match (s.cureUnit b).context with
    | some c => [(19, .ofCount c.sub.toNat)]
    | none => []
  | .endCure => [state, (26, 0)] ++ discardWords (s.cureUnit b).take
  | .clear => [state, (28, 0)]
  | _ => [state]

/-- The bed state an accepted request leads to (R8 to R16). HOLD and RESUME leave it: one whose write passed
while a profile end event waited, and whose bed that event took out of CURING (R7), is accepted without
content checks (R13) and changes nothing (DESIGN CHOICE, log entry 42). -/
def BedRequest.leadsTo (r : BedRequest) (u : BedUnit) : BedState :=
  match r.code with
  | .prepare => .prepared
  | .cast => .cast
  | .startCure => .curing
  | .stand => .standing
  | .hold => u.state
  | .resume => u.state
  | .endCure => r.target
  | .detension => if u.inBed = [] then .empty else .detensioned
  | .clear => .empty

/-- What the Bed Unit and its readers change when the result group of an accepted request is handed. -/
def acceptBed (b : Fin 24) (r : BedRequest) (new : BedState) (s : State) : State :=
  match r.code with
  | .cast =>
    let u := s.bedUnit b
    let x := s.cureUnit b
    let set := (s.setBedUnit b { u with inBed := r.pieces }).setCureUnit b { x with maturity := 0, sighted := false }
    setBedState b new (changeUse u.mix r.pieces.length set)
  | _ => setBedState b new s

/-- The pieces of the next group of a result, and whether it is the last: all the runs with the bed
record if they fit in one group, else the first six runs (R10). -/
def nextPieces (toWrite : List Nat) : List (List Nat) × Bool :=
  let runs := runsOf toWrite
  if runs.length + 1 ≤ Config.groupSpans then (runs, true) else (runs.take Config.groupSpans, false)

/-- The next group of a bed request's result (R6, R10, R16). -/
def bedRequestGroup (b : Fin 24) (s : State) : Formed :=
  let u := s.bedUnit b
  match u.request with
  | some r =>
    if r.stage = .waitingSlot then
      let inFlight (s : State) (r : BedRequest) : State :=
        s.setBedUnit b { s.bedUnit b with request := some { r with stage := .resultInFlight } }
      if r.result = .accepted then
        let (runs, last) := nextPieces r.toWrite
        let now := runs.flatMap id
        let spans :=
          match r.code with
          | .clear => runs.map (runSpan (fun _ => pieceFreeWords))
          | _ => runs.map (runSpan (fun n => pieceCastWords (castPiece b u.mix r n) r.time))
        let written :=
          match r.code with
          | .clear => now.foldl (fun s n => startFreeing n s) s
          | _ => now.foldl (fun s n => castInto b u.mix r n s) s
        let freed := if r.code = .clear then now else []
        let left := { r with toWrite := r.toWrite.filter (fun n => decide (n ∉ now)) }
        if last then
          let new := r.leadsTo u
          let words := (17, 0) :: (30, resultWord r.code.toNat .accepted) :: acceptedWords b r new s
          (inFlight (acceptBed b r new written) left,
            some (spans ++ [recordSpan .bed b.val words], .bedResult b freed (stateChange u.state new)))
        else (inFlight written left, some (spans, .bedPart b freed))
      else
        (inFlight s r, some ([recordSpan .bed b.val [(17, 0), (30, resultWord r.code.toNat r.result)]], .bedResult b [] none))
    else (s, none)
  | none => (s, none)

/-! ### Events of the concrete (R7, R17) -/

/-- Whether an event has an effect in a bed state (R17). -/
def BedEvent.effective (e : BedEvent) (state : BedState) : Bool :=
  match e, state with
  | .releaseReached, .standing => true
  | .profileEnd, .curing => true
  | _, _ => false

/-- An event of the concrete handed to the Bed Unit (R7). -/
def bedEvent (b : Fin 24) (e : BedEvent) (s : State) : State :=
  let u := s.bedUnit b
  if e ∈ u.deferred then s
  else if u.request = none ∧ u.deferred = [] then
    if e.effective u.state then handJob (.bedEvent b) (s.setBedUnit b { u with deferred := [e] }) else s
  else s.setBedUnit b { u with deferred := u.deferred ++ [e] }

/-- The group of a state event: "Each change is written as a commit group that carries the bed record
alone" (R17). -/
def concreteGroup (b : Fin 24) (e : BedEvent) (s : State) : Formed :=
  let old := (s.bedUnit b).state
  match e with
  | .releaseReached =>
    (setBedState b .releasable s,
      some ([recordSpan .bed b.val [(18, .ofCount BedState.releasable.toNat)]], .bedEvent b (stateChange old .releasable)))
  | .profileEnd =>
    let new := if s.releaseReached b then BedState.releasable else .standing
    let ended := discardTake b (endCure b s)
    (setBedState b new ended,
      some ([recordSpan .bed b.val ([(18, .ofCount new.toNat), (26, (0 : Word))] ++ discardWords (ended.cureUnit b).take)],
        .bedEvent b (stateChange old new)))

/-- What follows once an event has been taken: the next deferred event, or the intake read that waited (R7). An event
is taken when its group has been admitted, so the read is asked for behind the group (`handed`). -/
def afterEvent (b : Fin 24) (s : State) : State :=
  let u := s.bedUnit b
  if u.deferred ≠ [] then handJob (.bedEvent b) s
  else
    match u.request with
    | some r => if r.stage = .waitingRead then askIntake b s else s
    | none => s

/-- Take the head of the deferred events; one without effect is dropped (R7). -/
def bedEventGroup (b : Fin 24) (s : State) : Formed :=
  let u := s.bedUnit b
  match u.deferred with
  | [] => (s, none)
  | e :: rest =>
    let popped := s.setBedUnit b { u with deferred := rest }
    if e.effective u.state then concreteGroup b e popped else (popped, none)

/-! ### Completions (R6, R7, R16) -/

/-- The pieces of a CLEAR's group that has completed are counted (R16, R19). A group under way that completes in
SAFE counts nothing: the copies and counts keep the values they had when SAFE was entered (R23, R130). -/
def piecesFreed (ns : List Nat) (s : State) : State := if s.safe then s else ns.foldl (fun s n => pieceFreed n s) s

/-- A group that wrote the TAKE word NONE for a discarded take has completed (R80). -/
def discardDone (b : Fin 24) (s : State) : State :=
  match (s.cureUnit b).take with
  | .discarding => s.setTake b .none
  | _ => s

/-- A group of a large CAST or CLEAR has completed: the next one is handed (R10). -/
def bedPartDone (b : Fin 24) (freed : List Nat) (s : State) : State :=
  let counted := piecesFreed freed s
  match (counted.bedUnit b).request with
  | some r => formResult b r counted
  | none => counted

/-- The result group has completed: the request ends, its notices are posted, and the deferred events
are taken (R4, R6, R7). -/
def bedResultDone (b : Fin 24) (freed : List Nat) (change : Option (BedState × BedState)) (s : State) : State :=
  let counted := discardDone b (postBedState b change (piecesFreed freed s))
  match (counted.bedUnit b).request with
  | some r =>
    let ended := counted.setBedUnit b { counted.bedUnit b with request := none }
    let told := if r.result = .accepted then ended
      else postBed .bedResult b (detail2 r.code.toNat r.result.toNat) ended
    if (told.bedUnit b).deferred = [] then told else handJob (.bedEvent b) told
  | none => counted

def bedEventDone (b : Fin 24) (change : Option (BedState × BedState)) (s : State) : State :=
  discardDone b (postBedState b change s)

/-! ### Departures and the lift gate (R18, R21) -/

/-- The bed a piece came from. -/
def Piece.origin (p : Piece) : Option (Fin 24) := if p.bed = 0 then none else fin? 24 (p.bed - 1)

/-- A departure arrives (R18): the piece leaves its origin bed's in-bed list, or the departure is stale. -/
def leaveBed (n : Nat) (s : State) : Option (Fin 24 × State) :=
  match (s.piece? n).bind Piece.origin with
  | none => none
  | some b =>
    let u := s.bedUnit b
    if n ∈ u.inBed then some (b, s.setBedUnit b { u with inBed := u.inBed.filter (fun m => decide (m ≠ n)) }) else none

/-- The bed span that the group of a departure carries (R18). A DETENSIONED bed that its departures have emptied
becomes EMPTY when the group is handed, and its BED_STATE is posted then: R18 gives the notice with the span and
names no completion, while the notices of a bed's own groups wait for it (DESIGN CHOICE, log entry 48). -/
def bedSpan (b : Fin 24) (s : State) : State × Span :=
  let u := s.bedUnit b
  if u.state = .detensioned ∧ u.inBed = [] then
    (postBedState b (some (.detensioned, .empty)) (setBedState b .empty s),
      recordSpan .bed b.val [(28, 0), (18, .ofCount BedState.empty.toNat)])
  else (s, recordSpan .bed b.val [(28, .ofCount u.inBed.length)])

/-- A departure that arrives with its group (R18): the bed span it supplies, or nothing when it is stale. -/
def departure (n : Nat) (s : State) : Option (State × Span) := (leaveBed n s).map (fun x => bedSpan x.1 x.2)

/-- "The gate is open when the piece is IN_BED, its origin bed is DETENSIONED, and the piece's maturity
is at least the lift threshold of its mix" (R21); a piece IN_BED has its bed's maturity (R90). -/
def State.liftGate (s : State) (n : Nat) : Bool :=
  match s.piece? n with
  | some p =>
    match p.origin with
    | some b =>
      decide (p.state = .inBed ∧ (s.bedUnit b).state = .detensioned ∧ (s.mix p.mix).lift ≤ (s.cureUnit b).maturity)
    | none => false
  | none => false

/-- SAFE: requests and deferred events are dropped (R23). -/
def bedsSafe (s : State) : State :=
  forBeds (fun b s => s.setBedUnit b { s.bedUnit b with request := none, deferred := [] }) s

/-! ### The steps of all beds (R83, R89) -/

/-- The control step with the events it hands (R82, R83). The beds are taken in number order, each through its whole
step, which gives the order of their refreshes, reports and profile end events: no rule gives one (DESIGN CHOICE, log
entry 49). -/
def controlStep (s : State) : State :=
  if s.running then
    forBeds (fun b s =>
      let after := controlBed b s
      if newlyEnded (s.cureUnit b) (after.cureUnit b) then bedEvent b .profileEnd after else after) s
  else s

/-- The maturity step, and then the release reached events (R17, R89). The beds are taken in number order, which gives
the order of their refreshes and of their release reached events, and so of the groups, slot waits and BED_STATE notices
of one step: R17 and R89 give none (DESIGN CHOICE, log entry 49). -/
def maturityStep (s : State) : State :=
  if s.running then
    forBeds (fun b s =>
      if (s.cureUnit b).bedState = .standing ∧ s.releaseReached b then bedEvent b .releaseReached s else s)
      (forBeds maturityBed s)
  else s

/-- A take's group with the profile end event a refused take can release (R79, R82). -/
def takeResultGroup (b : Fin 24) (s : State) : Formed :=
  match takeGroup b s with
  | some (after, spans, c) =>
    (if newlyEnded (s.cureUnit b) (after.cureUnit b) then bedEvent b .profileEnd after else after, some (spans, c))
  | none => (s, none)

end Sys2Proof.Machine
end

