-- ==== Sys2Proof/Machine/Stock.lean ====
section
/-! DEFINITION. The Stock Unit (R110 to R130): claims and planned stacks, picks, landings, releases and
redirects, piece requests, yard maturity and readiness. -/

namespace Sys2Proof.Machine

/-! ### The claim test (R120) -/

def State.lengthOf (s : State) (n : Nat) : Nat := match s.piece? n with | some p => p.length | none => 0

/-- A stack under test, top first, and the greatest height it has reached. -/
structure Tested where
  stack : List Nat
  peak : Nat
deriving DecidableEq, Repr

/-- What the claim test answers: the stack the claims leave, or the first claim that fails. -/
inductive Test where
  | passes (t : Tested)
  | fails (c : Claim)
deriving DecidableEq, Repr

/-- Carry out one claim on a copy of a stack (R120). -/
def carryOut (len : Nat → Nat) (maxHeight : Nat) (t : Tested) (c : Claim) : Option Tested :=
  match c.op with
  | .pick =>
    match t.stack with
    | top :: rest => if top = c.piece then some { t with stack := rest } else none
    | [] => none
  | .place =>
    let fits : Bool := match t.stack with | top :: _ => decide (len c.piece ≤ len top) | [] => true
    if t.stack.length < maxHeight ∧ fits then
      some ⟨c.piece :: t.stack, max t.peak (t.stack.length + 1)⟩
    else none

/-- The claim test over a list of claims, in list order (R120). -/
def claimTest (len : Nat → Nat) (maxHeight : Nat) : Tested → List Claim → Test
  | t, [] => .passes t
  | t, c :: rest =>
    match carryOut len maxHeight t c with
    | some t' => claimTest len maxHeight t' rest
    | none => .fails c

/-- A stack, bottom first, at the start of a test. -/
def startTest (stack : List Nat) : Tested := ⟨stack.reverse, stack.length⟩

/-- The claim test of a slot over a given stack. -/
def State.testSlot (s : State) (x : Slot) (stack : List Nat) : Test :=
  claimTest s.lengthOf x.maxHeight (startTest stack) x.claims

def Test.passed : Test → Bool
  | .passes _ => true
  | .fails _ => false

/-- The planned stack of a slot, top first, with the peak planned height (R120). R120 says that every list passes; a
maximum height judged before a claim is granted and taken into the copy after it can still make one fail, and the planned
stack and its peak are then the stack as it stands and its height (DESIGN CHOICE, log entry 72). -/
def State.planned (s : State) (x : Slot) : Tested :=
  match s.testSlot x x.stack with
  | .passes t => t
  | .fails _ => startTest x.stack

/-! ### Spans (sections 6.1, 6.4) -/

def State.slotSpan (s : State) (n : Nat) : List Span :=
  match s.slot? n with
  | some x => [recordSpan .slot (n - 1) (slotWords x)]
  | none => []

def State.pieceSpan (s : State) (n : Nat) : List Span :=
  match s.piece? n with
  | some p => [recordSpan .piece (n - 1) (pieceLiveWords p)]
  | none => []

/-! ### Claim requests (R121) -/

/-- The zone of a destination: a slot's, or the bay's (R118). -/
def State.destZone (s : State) (dest : Nat) : Nat :=
  if dest = Config.bayCode then s.dir.bayZone
  else match s.slot? dest with | some x => x.zone | none => 0

/-- The slot a move places onto, if its destination is one. -/
def State.placeSlot (s : State) (dest : Nat) : Option Slot := if dest = Config.bayCode then none else s.slot? dest

/-- The dispatch gate's threshold (R128). -/
def State.dispatchReady (s : State) (p : Piece) : Bool := decide ((s.mix p.mix).dispatch ≤ p.maturity)

/-- The checks of R121 on the destination slot, 8 to 10. -/
def State.placeVerdict (s : State) (len : Nat) (x : Slot) : Code :=
  let t := s.planned x
  if x.isOpen = false then .slotClosed
  else if t.stack.length = x.maxHeight then .noRoom
  else match t.stack with
    | top :: _ => if s.lengthOf top < len then .length else .none
    | [] => .none

/-- Whether a slot the move would claim holds 8 claims (R121). -/
def claimsFull (x : Option Slot) : Bool :=
  match x with
  | some x => decide (Config.claimsMax ≤ x.claims.length)
  | none => false

/-- The judgement of a claim request (R121): the first check that fails, or NONE. -/
def State.claimVerdict (s : State) (kind : MoveKind) (piece dest : Nat) : Code :=
  match s.piece? piece with
  | none => .noPiece
  | some p =>
    let lift := decide (kind = .lift)
    let dispatch := decide (kind = .dispatch)
    let source := if lift then none else s.slot? p.slot
    let target := if dispatch then none else s.slot? dest
    if (lift ∧ p.state ≠ .inBed) ∨ (lift = false ∧ p.state ≠ .inStock) then .noPiece
    else if p.claim ≠ 0 then .pieceBusy
    else if (if dispatch then decide (dest ≠ Config.bayCode)
        else target.isNone || (decide (kind = .restack) && decide (dest = p.slot))) then .badDest
    else if lift ∧ s.liftGate piece = false then .notLiftable
    else if (match source with | some x => decide ((s.planned x).stack.head? ≠ some piece) | none => !lift) then .notOnTop
    else if dispatch ∧ p.hold ≠ 0 then .held
    else if dispatch ∧ s.dispatchReady p = false then .notReady
    else
      match (match target with | some x => s.placeVerdict p.length x | none => Code.none) with
      | .none =>
        if claimsFull source || claimsFull target then .claimsFull
        else .none
      | reason => reason

/-- A claim joins the tail of a slot's list (R121). -/
def joinClaim (slot : Nat) (c : Claim) (s : State) : State :=
  match s.slot? slot with
  | some x => s.setSlot slot { x with claims := x.claims ++ [c] }
  | none => s

/-- Grant the claims of an accepted order (R121). The source slot is the piece's own. -/
def grantClaims (move : Nat) (kind : MoveKind) (piece dest : Nat) (s : State) : State :=
  match s.piece? piece with
  | none => s
  | some p =>
    let claimed := s.setPiece piece { p with claim := move }
    let picked := if kind = .lift then claimed else joinClaim p.slot ⟨move, .pick, piece⟩ claimed
    if kind = .dispatch then picked else joinClaim dest ⟨move, .place, piece⟩ picked

/-! ### Questions about a move's claims (R122, R151) -/

/-- "A move is loaded while its piece is ON_HOOK with the move as claiming move" (R151). -/
def State.isLoaded (s : State) (m : Move) : Bool :=
  match s.piece? m.piece with
  | some p => decide (m.kind ≠ .park ∧ p.state = .onHook ∧ p.claim = m.number)
  | none => false

/-- Whether a slot's list, if it holds a claim of the move, holds it at the head. -/
def Slot.headedBy (x : Slot) (move : Nat) : Bool :=
  match x.claims.find? (fun c => decide (c.move = move)) with
  | some _ => decide ((x.claims.head?.map (·.move)) = some move)
  | none => true

/-- The start condition (R122): each claim of the move stands at the head of its slot's list. -/
def State.startCondition (s : State) (move : Nat) : Bool := s.stock.slots.all (fun x => x.headedBy move)

/-- The lowering condition (R122). -/
def State.loweringCondition (s : State) (m : Move) : Bool :=
  if m.dest = Config.bayCode then
    match s.piece? m.piece with | some p => decide (p.hold = 0) | none => false
  else
    match s.slot? m.dest with
    | some x => (match x.claims with | c :: _ => decide (c.move = m.number ∧ c.op = .place) | [] => false)
    | none => false

/-! ### Picks and landings (R123, R124, R128) -/

/-- The ready check of a piece (R128). -/
def readyCheck (n : Nat) (s : State) : State :=
  match s.piece? n with
  | some p =>
    if p.ready = false ∧ s.dispatchReady p then
      post .pieceReady .piece n (.ofCount p.maturity) (s.setPiece n { p with ready := true })
    else s
  | none => s

/-- Take a move's head claim off a slot's list. -/
def Slot.carried (x : Slot) : Slot := { x with claims := x.claims.drop 1 }

/-- A pick (R123): the state after it and its spans, or nothing when it is out of order. -/
def pick (move piece : Nat) (s : State) : Option (State × List Span) :=
  match s.piece? piece with
  | none => none
  | some p =>
    if p.claim ≠ move then none
    else
      match p.state with
      | .inBed =>
        let matured := match p.origin with
          | some b => (s.cureUnit b).maturity
          | none => p.maturity
        match departure piece (s.setPiece piece { p with state := .onHook, maturity := matured }) with
        | some (left, span) =>
          let checked := readyCheck piece left
          some (checked, checked.pieceSpan piece ++ [span])
        | none => none
      | .inStock =>
        match s.slot? p.slot with
        | none => none
        | some x =>
          let heads : Bool := match x.claims with | c :: _ => decide (c.move = move ∧ c.op = .pick ∧ c.piece = piece) | [] => false
          if heads ∧ x.stack.getLast? = some piece then
            let taken := s.setSlot p.slot { x.carried with stack := x.stack.dropLast }
            let checked := readyCheck piece (taken.setPiece piece { p with state := .onHook, slot := 0 })
            some (checked, checked.pieceSpan piece ++ checked.slotSpan p.slot)
          else none
      | _ => none

/-- A landing (R124): the state after it and its spans, or nothing when it is out of order. -/
def land (move piece dest : Nat) (s : State) : Option (State × List Span) :=
  match s.piece? piece with
  | none => none
  | some p =>
    if p.state ≠ .onHook ∨ p.claim ≠ move then none
    else if dest = Config.bayCode then
      let put := s.setPiece piece { p with state := .dispatched, claim := 0, zone := s.dir.bayZone }
      let joined : State := { put with stock := { put.stock with dispatched := put.stock.dispatched ++ [piece] } }
      some (joined, joined.pieceSpan piece)
    else
      match s.slot? dest with
      | none => none
      | some x =>
        match x.claims with
        | c :: _ =>
          if c.move = move ∧ c.op = .place then
            let down := (s.setSlot dest { x.carried with stack := x.stack ++ [piece] }).setPiece piece
              { p with state := .inStock, slot := dest, zone := x.zone, claim := 0 }
            some (down, down.pieceSpan piece ++ down.slotSpan dest)
          else none
        | [] => none

/-! ### Releases (R125) -/

/-- Remove every claim of a move and make its piece's claiming move absent. -/
def dropClaims (move piece : Nat) (s : State) : State :=
  let slots := s.stock.slots.map (fun x => { x with claims := x.claims.filter (fun c => decide (c.move ≠ move)) })
  let dropped : State := { s with stock := { s.stock with slots := slots } }
  match dropped.piece? piece with
  | some p => if p.claim = move then dropped.setPiece piece { p with claim := 0 } else dropped
  | none => dropped

/-- The slots, by number, whose lists hold a claim of a move: the lists that its release changes (R125). -/
def State.claimedSlots (s : State) (move : Nat) : List Nat :=
  (countFrom 1 s.stock.slots.length).filter
    (fun n => match s.slot? n with | some x => x.claims.any (fun c => decide (c.move = move)) | none => false)

/-- The named claim of a slot's list that fails the claim test (R120). -/
def State.failingIn (s : State) (n : Nat) : Option Claim :=
  match s.slot? n with
  | some x => match s.testSlot x x.stack with | .fails c => some c | .passes _ => none
  | none => none

/-- The first failing claim over the lists that have changed: "the Stock Unit therefore runs the claim test over
every list it has changed" (R125), and over no other list. R125 does not say which of several failing lists is taken
first: the changed lists are tested from the lowest slot up, and again from the lowest after each release (DESIGN
CHOICE, log entry 51). -/
def State.failingClaim (s : State) (changed : List Nat) : Option Claim :=
  ((countFrom 1 s.stock.slots.length).filter (fun n => decide (n ∈ changed))).findSome? s.failingIn

/-- Release the moves whose claims fail until every changed list passes, in the order of release; the lists that a
release changes are tested in turn (R125). -/
def releaseFailing : Nat → List Nat → State → State × List Nat
  | 0, _, s => (s, [])
  | fuel + 1, changed, s =>
    match s.failingClaim changed with
    | none => (s, [])
    | some c =>
      let rest := releaseFailing fuel (s.claimedSlots c.move ++ changed) (dropClaims c.move c.piece s)
      (rest.1, c.move :: rest.2)

/-- A release for a move, with the moves released with it (R125). At most 16 moves hold claims. -/
def releaseMove (move piece : Nat) (s : State) : State × List Nat :=
  releaseFailing 16 (s.claimedSlots move) (dropClaims move piece s)

/-! ### Redirects (R126) -/

/-- Whether a claim is loaded: a PLACE claim whose piece is ON_HOOK (R119). -/
def State.claimLoaded (s : State) (c : Claim) : Bool :=
  decide (c.op = .place) && (match s.piece? c.piece with | some p => decide (p.state = .onHook) | none => false)

/-- The claims up to the insertion point, directly after the last loaded claim (R126). -/
def State.loadedPrefix (s : State) (cs : List Claim) : List Claim :=
  cs.take (cs.length - (cs.reverse.findIdx (fun c => s.claimLoaded c)))

/-- The test of a new PLACE claim in a slot's list: NO_ROOM, LENGTH, REPLAN_CONFLICT, or NONE (R126). -/
def State.insertVerdict (s : State) (x : Slot) (c : Claim) : Code :=
  let ahead := s.loadedPrefix x.claims
  match claimTest s.lengthOf x.maxHeight (startTest x.stack) ahead with
  | .fails _ => .replanConflict
  | .passes t =>
    if t.stack.length = x.maxHeight then .noRoom
    else
      match carryOut s.lengthOf x.maxHeight t c with
      | none => .length
      | some t' =>
        if (claimTest s.lengthOf x.maxHeight t' (x.claims.drop ahead.length)).passed then .none else .replanConflict

/-- Whether the old destination's list passes with the move's claim removed (R126). -/
def State.removalPasses (s : State) (move dest : Nat) : Bool :=
  match s.placeSlot dest with
  | some x =>
    (s.testSlot { x with claims := x.claims.filter (fun c => decide (c.move ≠ move)) } x.stack).passed
  | none => true

/-- The judgement of a redirect (R126): the first check that fails, or NONE. -/
def State.redirectVerdict (s : State) (m : Move) (dest : Nat) : Code :=
  match s.piece? m.piece with
  | none => .noPiece
  | some p =>
    if dest = m.dest then .badDest
    else if dest = Config.bayCode then
      if p.hold ≠ 0 then .held
      else if s.dispatchReady p = false then .notReady
      else if s.removalPasses m.number m.dest then .none else .replanConflict
    else
      match s.slot? dest with
      | none => .badDest
      | some x =>
        if x.isOpen = false then .slotClosed
        else if Config.claimsMax ≤ x.claims.length then .claimsFull
        else
          match s.insertVerdict x ⟨m.number, .place, m.piece⟩ with
          | .none => if s.removalPasses m.number m.dest then .none else .replanConflict
          | reason => reason

/-- Carry out a redirect that passed: the claim is inserted, the old one removed (R126). -/
def redirectClaims (m : Move) (dest : Nat) (s : State) : State :=
  let removed :=
    match s.placeSlot m.dest with
    | some x => s.setSlot m.dest { x with claims := x.claims.filter (fun c => decide (c.move ≠ m.number)) }
    | none => s
  match removed.placeSlot dest with
  | some x =>
    let ahead := removed.loadedPrefix x.claims
    removed.setSlot dest { x with claims := ahead ++ ⟨m.number, .place, m.piece⟩ :: x.claims.drop ahead.length }
  | none => removed

/-! ### Piece requests (R113, R114) -/

/-- Whether a piece request is legal by the copies (R113). -/
def State.pieceLegal (s : State) (n : Nat) (code : PieceCode) : Bool :=
  match s.piece? n with
  | none => false
  | some p =>
    match code with
    | .free => decide (p.state = .dispatched)
    | .scrap =>
      decide (p.claim = 0) &&
      (match p.state with
      | .inBed => true
      | .inStock =>
        match s.slot? p.slot with
        | some x => decide (x.stack.getLast? = some n) && (s.testSlot x x.stack.dropLast).passed
        | none => false
      | _ => false)

/-- How a write of a piece's request word is judged (R113): a reason, or NONE when it passes. -/
def State.pieceVerdict (s : State) (n value : Nat) : Code :=
  if 2 < value then .range
  else
    match s.piece? n with
    | none => .state
    | some p =>
      if p.request ≠ none then .busy
      else
        match PieceCode.ofNat? value with
        | none => .none
        | some code => if s.pieceLegal n code then .none else .state

def setRequest (n : Nat) (r : Option PieceRequest) (s : State) : State :=
  match s.piece? n with
  | some p => s.setPiece n { p with request := r }
  | none => s

/-- Whether the copies have a piece IN_BED. -/
def State.lieInBed (s : State) (n : Nat) : Bool :=
  match s.piece? n with
  | some p => decide (p.state = .inBed)
  | none => false

/-- The judging of a piece request that is handed (R114): its result, with the Bed Unit's state after the
departure that a SCRAP of a piece IN_BED hands it (R18). -/
def judgePiece (n : Nat) (code : PieceCode) (s : State) : State × Code :=
  if s.pieceLegal n code = false then (s, .state)
  else if code = .scrap ∧ s.lieInBed n then
    match leaveBed n s with
    | some (_, left) => (left, .accepted)
    | none => (s, .state)
  else (s, .accepted)

/-- A piece request handed by the Path Unit, or a failed one (R114, R35). It waits "with its result formed, and
the copies are changed when the group is handed" (R114; log entry 14). -/
def piecePosted (n : Nat) (code : PieceCode) (failed : Bool) (s : State) : State :=
  let judged := if failed then (s, Code.memory) else judgePiece n code s
  handJob (.pieceResult n) (setRequest n (some ⟨code, .waitingSlot, judged.2⟩) judged.1)

/-- The result group's words in the piece record. -/
def pieceResultWords (code : PieceCode) (result : Code) : List (Nat × Word) :=
  [(9, 0), (10, resultWord code.toNat result)]

/-- The result group of a request that is not accepted. -/
def pieceRefusedGroup (n : Nat) (code : PieceCode) (result : Code) (s : State) : Formed :=
  (setRequest n (some ⟨code, .resultInFlight, result⟩) s,
    some ([recordSpan .piece (n - 1) (pieceResultWords code result)], .pieceResult n))

/-- The result group of an accepted request: the piece is freed, with the span of the bed or the slot it
leaves (R114, R112). -/
def pieceAcceptedGroup (n : Nat) (code : PieceCode) (spans : List Span) (s : State) : Formed :=
  (startFreeing n (setRequest n (some ⟨code, .resultInFlight, .accepted⟩) s),
    some (recordSpan .piece (n - 1) (pieceFreeWords ++ pieceResultWords code .accepted) :: spans, .pieceResult n))

/-- A stack without one of its pieces: the top is taken off (R114, R129). A piece on which another has been landed
since its SCRAP was judged is taken out from under it (log entry 14). -/
def takenOff (n : Nat) (stack : List Nat) : List Nat :=
  if stack.getLast? = some n then stack.dropLast else stack.filter (fun m => decide (m ≠ n))

/-- What an accepted SCRAP takes its piece out of, with the span written: the bed it lay in, or the stack of its
slot (R114). A FREE takes it out of nothing that is in memory. -/
def scrapSpans (n : Nat) (code : PieceCode) (p : Piece) (s : State) : State × List Span :=
  match code, p.state with
  | .free, _ => (s, [])
  | .scrap, .inBed =>
    match p.origin with
    | some b => ((bedSpan b s).1, [(bedSpan b s).2])
    | none => (s, [])
  | .scrap, _ =>
    match s.slot? p.slot with
    | some x =>
      let off := s.setSlot p.slot { x with stack := takenOff n x.stack }
      (off, off.slotSpan p.slot)
    | none => (s, [])

/-- The group of a piece request's result (R114). -/
def pieceResultGroup (n : Nat) (s : State) : Formed :=
  match s.piece? n with
  | none => (s, none)
  | some p =>
    match p.request with
    | none => (s, none)
    | some r =>
      if r.result = .accepted then
        let left := scrapSpans n r.code p s
        pieceAcceptedGroup n r.code left.2 left.1
      else pieceRefusedGroup n r.code r.result s

/-- The result group has completed: the request ends; a freed piece is FREE and counted (R112, R114). -/
def pieceResultDone (n : Nat) (s : State) : State :=
  match s.piece? n with
  | none => s
  | some p =>
    match p.request with
    | none => s
    | some r =>
      let ended := setRequest n none s
      if r.result = .accepted then pieceFreed n ended
      else post .pieceResult .piece n (detail2 r.code.toNat r.result.toNat) ended

/-! ### Yard maturity (R127) -/

/-- One piece's yard maturity step. -/
def yardStep (temperature : Int) (n : Nat) (s : State) : State :=
  match s.piece? n with
  | some p =>
    if p.state = .inStock then
      let m := maturityAfter p.maturity temperature (s.mix p.mix).datum
      if m = p.maturity then s
      else refresh .piece (n - 1) [(4, .ofCount m)] (s.setPiece n { p with maturity := m })
    else s
  | none => s

def yardReady (n : Nat) (s : State) : State :=
  match s.piece? n with
  | some p => if p.state = .inStock then readyCheck n s else s
  | none => s

/-- The maturity step of the Stock Unit (R127). The pieces are taken in number order, which gives the order of
their refreshes and of their PIECE_READY notices: R127 and R128 give none (DESIGN CHOICE, log entry 45). -/
def yardMaturityStep (s : State) : State :=
  if s.running then
    let ns := countFrom 1 s.stock.pieces.length
    let added :=
      match s.yardTemperature with
      | some t => ns.foldl (fun s n => yardStep t n s) s
      | none => s
    ns.foldl (fun s n => yardReady n s) added
  else s

/-- SAFE: requests in progress are dropped (R130). -/
def stockSafe (s : State) : State :=
  { s with stock := { s.stock with pieces := s.stock.pieces.map (fun p => { p with request := none }) } }

end Sys2Proof.Machine
end

