-- ==== Sys2Proof/Machine/Runway.lean ====
section
/-! DEFINITION. The Runway Monitor's own part (R131 to R150): position zones, extents and the gap test,
permits with their dead time, and the levels that faults are judged by. -/

namespace Sys2Proof.Machine

/-! ### One value for each permit -/

def permitOf {α : Type} (x : ByPermit α) : Permit → α
  | .travelWest => x.travelWest
  | .travelEast => x.travelEast
  | .hoistLower => x.hoistLower
  | .hoistRaise => x.hoistRaise

def setPermit {α : Type} (x : ByPermit α) (p : Permit) (v : α) : ByPermit α :=
  match p with
  | .travelWest => { x with travelWest := v }
  | .travelEast => { x with travelEast := v }
  | .hoistLower => { x with hoistLower := v }
  | .hoistRaise => { x with hoistRaise := v }

def mapPermits {α β : Type} (f : Permit → α → β) (x : ByPermit α) : ByPermit β :=
  ⟨f .travelWest x.travelWest, f .travelEast x.travelEast, f .hoistLower x.hoistLower, f .hoistRaise x.hoistRaise⟩

/-- The opposite permit of the same axis (R142). -/
def oppositePermit : Permit → Permit
  | .travelWest => .travelEast
  | .travelEast => .travelWest
  | .hoistLower => .hoistRaise
  | .hoistRaise => .hoistLower

/-! ### The monitor's copies -/

def State.mon (s : State) (c : Fin 2) : Monitor := (s.crane c).mon

def State.cab (s : State) (c : Fin 2) : CabSide := (s.crane c).cab

/-- Change the Move Controller's side of a crane; its link state and head move words are refreshed when
they change (R155, R159), during LOADING too once the regions are known (R47). -/
def setCab (c : Fin 2) (x : CabSide) (s : State) : State :=
  refresh .crane c.val (changedWords (cabWords (s.cab c)) (cabWords x)) (s.setCrane c { s.crane c with cab := x })

/-- Change the monitor's side of a crane: the changed live words are refreshed (R132), during LOADING too once the
regions are known (R47), and the Move Controller is handed the armed flag, homed flag, position zone and span (R135,
R136, R148). -/
def setMon (c : Fin 2) (m : Monitor) (s : State) : State :=
  let x := s.crane c
  refresh .crane c.val (changedWords (monitorWords x.mon) (monitorWords m)) (s.setCrane c
    { x with mon := m, cab := { x.cab with armed := m.armed, homed := m.homed, posZone := m.posZone, span := m.span } })

/-! ### Zones, extents and the gap test (R135, R136) -/

/-- "the count less the zone origin, divided by the zone width and rounded toward minus infinity" (R135). -/
def Monitor.zoneNow (m : Monitor) : Int := (m.count - m.origin) / (m.zoneWidth : Int)

/-- Whether a zone lies on the runway: from 0 to Z−1. -/
def State.onRunway (s : State) (z : Int) : Bool := decide (0 ≤ z ∧ z < (s.dir.zones : Int))

def ZoneRun.has (r : ZoneRun) (z : Int) : Bool := decide ((r.lo : Int) ≤ z ∧ z ≤ (r.hi : Int))

/-- Whether a zone lies in a crane's non-empty span. -/
def State.inSpan (s : State) (c : Fin 2) (z : Int) : Bool :=
  match (s.mon c).span with
  | some r => r.has z
  | none => false

/-- The extent of a crane (R136). -/
def State.extent (s : State) (c : Fin 2) : Option ZoneRun :=
  match (s.mon c).span with
  | some r => some r
  | none =>
    match (s.mon c).posZone with
    | some z => if (s.mon c).homed ∧ s.onRunway z then some ⟨z.toNat, z.toNat⟩ else none
    | none => none

/-- The gap test of a candidate span for a crane (R136). -/
def State.gapTest (s : State) (c : Fin 2) (cand : ZoneRun) : Bool :=
  match s.extent (otherCrane c) with
  | none => true
  | some e => if c = 0 then decide (cand.hi + 1 < e.lo) else decide (e.hi + 1 < cand.lo)

/-- The run from the lowest to the highest of a zone and further zones. -/
def runOver (z : Nat) (zones : List Nat) : ZoneRun := ⟨zones.foldl min z, zones.foldl max z⟩

/-- The span a take would give: the position zone, when the crane is homed with an empty span, the zone
lies on the runway and the gap test passes (R137). -/
def State.takeSpan (s : State) (c : Fin 2) : Option ZoneRun :=
  match (s.mon c).span, (s.mon c).posZone with
  | none, some z =>
    let cand : ZoneRun := ⟨z.toNat, z.toNat⟩
    if (s.mon c).homed ∧ s.onRunway z ∧ s.gapTest c cand then some cand else none
  | _, _ => none

/-- The candidate span of a request, when it fits: "the crane is homed, its position zone and every
target lie from 0 to Z−1, and the candidate passes the gap test" (R138). -/
def State.fitSpan (s : State) (c : Fin 2) (targets : List Nat) : Option ZoneRun :=
  match (s.mon c).posZone with
  | some z =>
    let cand := runOver z.toNat targets
    if (s.mon c).homed ∧ s.onRunway z ∧ targets.all (fun t => decide (t < s.dir.zones)) ∧ s.gapTest c cand then some cand
    else none
  | none => none

/-- The span after a shrink (R140): "[min, max] over the position zone and those remaining targets that
lie inside the present span". A position outside the span leaves it to the OVERRUN test (log entry 15). -/
def Monitor.shrunk (m : Monitor) : Option ZoneRun :=
  match m.span, m.posZone with
  | some r, some z =>
    if m.homed ∧ r.has z then some (runOver z.toNat (m.targets.filter (fun t => r.has (t : Int)))) else some r
  | span, _ => span

/-! ### Permits (R141, R142) -/

/-- Whether the permits of a crane are allowed (R141). -/
def State.permitsAllowed (s : State) (c : Fin 2) : Bool :=
  (s.mon c).armed && !(s.mon c).cabStop && !s.yardStop && s.running

/-- Whether the phase copy is one of travel: TO_PICK, TO_PLACE or TO_PARK (R141). -/
def CranePhase.travels : CranePhase → Bool
  | .move .toPick => true
  | .move .toPlace => true
  | .move .toPark => true
  | _ => false

/-- Whether a permit is wanted (R141). The outward crawl is toward the crane's own runway end. -/
def State.permitWanted (s : State) (c : Fin 2) (p : Permit) : Bool :=
  let m := s.mon c
  let travel (step : Int) (outward : Bool) : Bool :=
    match m.span with
    | none => outward
    | some r => m.phase.travels && (match m.posZone with | some z => r.has (z + step) | none => false)
  match p with
  | .travelEast => travel 1 (decide (c = 1))
  | .travelWest => travel (-1) (decide (c = 0))
  | .hoistLower => decide (m.phase = .move .atPick ∨ m.phase = .move .atPlace)
  | .hoistRaise => true

/-- One permit turns off if it may not stay on: its opposite's block timer and its own off timer start (R142). -/
def turnOff (allowed : Permit → Bool) (p : Permit) (m : Monitor) : Monitor :=
  if permitOf m.permits p ∧ allowed p = false then
    { m with permits := setPermit m.permits p false,
             blockTimers := setPermit m.blockTimers (oppositePermit p) (m.deadTime * Config.deadTimeTicks),
             offTimers := setPermit m.offTimers p 0 }
  else m

/-- One permit turns on when it is wanted and allowed and its block timer is 0 (R142). -/
def turnOn (allowed : Permit → Bool) (p : Permit) (m : Monitor) : Monitor :=
  if allowed p ∧ permitOf m.blockTimers p = 0 then { m with permits := setPermit m.permits p true } else m

def allPermits : List Permit := [.travelWest, .travelEast, .hoistLower, .hoistRaise]

/-- Evaluate the permits of a crane (R141, R142): what may not stay on turns off, then what may turns on. -/
def evalPermits (c : Fin 2) (s : State) : State :=
  let allowed (p : Permit) : Bool := s.permitsAllowed c && s.permitWanted c p
  let off := allPermits.foldl (fun m p => turnOff allowed p m) (s.mon c)
  setMon c (allPermits.foldl (fun m p => turnOn allowed p m) off) s

/-! ### Levels (R145, R146) -/

/-- "both feedback inputs of one axis" active (R145). -/
def Monitor.conflict (m : Monitor) : Bool :=
  (m.feedback.travelWest && m.feedback.travelEast) || (m.feedback.hoistLower && m.feedback.hoistRaise)

/-- A feedback active against a permit that has been off for more than 2 s (R145). -/
def Monitor.disobeys (m : Monitor) : Bool :=
  allPermits.any (fun p =>
    permitOf m.feedback p && !permitOf m.permits p && decide (Config.disobeyTicks < permitOf m.offTimers p))

/-- Whether a stop input of a crane is active. -/
def State.stopActive (s : State) (c : Fin 2) : Bool := (s.mon c).cabStop || s.yardStop

/-- How a write of a crane's control word is judged (R147): a reason, or NONE when it passes. -/
def State.armVerdict (s : State) (c : Fin 2) (value : Nat) : Code :=
  if value = 0 then .none
  else if value = 1 then
    (if s.stopActive c then .stopActive
     else match (s.alarm (.crane c)).state with
      | .acked => .none
      | .clear => .none
      | _ => .faultLatched)
  else .range

end Sys2Proof.Machine
end

