-- ==== Sys2Proof/Machine/Spans.lean ====
section
/-! DEFINITION. Where the Runway Monitor and the Move Controller meet (R133 to R146, R155 to R168): a
crane's active move, the instructions to its cab, grants, phases and shrinks, suspension, faults, and
the encoder. The pieces are laid in layers: a grant touches one crane, an examination grants, a phase
change examines the other crane, a suspension changes a phase, a fault suspends. -/

namespace Sys2Proof.Machine

/-! ### Moves and their cranes (R151, R155) -/

/-- A live move: neither EMPTY, DONE nor ABORTED. -/
def MoveState.live : MoveState → Bool
  | .empty => false
  | .done => false
  | .aborted => false
  | _ => true

/-- Beyond QUEUED and live. -/
def MoveState.active (x : MoveState) : Bool := x.live && decide (x ≠ .queued)

/-- The entry of a live move by its number. -/
def State.entryOf (s : State) (number : Nat) : Option (Fin 16) :=
  (List.finRange 16).find? (fun i => decide ((s.move i).number = number) && (s.move i).state.live)

/-- "The head of a queue is the crane's active move" (R155). -/
def State.activeMove (s : State) (c : Fin 2) : Option (Fin 16) :=
  match (s.cab c).queue with
  | n :: _ => s.entryOf n
  | [] => none

/-- Change a mirror entry and refresh its changed words (R164). -/
def setMove (i : Fin 16) (m : Move) (s : State) : State :=
  refresh .moveTable i.val (changedWords (moveWords (s.move i)) (moveWords m)) (s.putMove i m)

def postMove (kind : NoticeKind) (i : Fin 16) (detail : Word) (s : State) : State := post kind .move i.val detail s

/-- The remaining targets of a move beyond QUEUED (R140, R155). -/
def State.targetsOf (s : State) (m : Move) : List Nat :=
  if m.kind = .park then [m.placeZone]
  else if s.isLoaded m then [m.placeZone]
  else (match m.pickZone with | some z => [z, m.placeZone] | none => [m.placeZone])

/-- What the Move Controller hands the monitor for a crane (R155). -/
def State.phaseOf (s : State) (c : Fin 2) : CranePhase × List Nat :=
  match s.activeMove c with
  | none => (.idle, [])
  | some i =>
    let m := s.move i
    match m.state with
    | .queued => (.idle, [])
    | .suspended => (.move .suspended, [])
    | x => (.move x, s.targetsOf m)

/-! ### The runway block (R168) -/

/-- Whether a crane's active move reserves with a waiting request whose candidate span contains the
other crane's position zone (R168). -/
def State.blockedBy (s : State) (c : Fin 2) : Bool :=
  match s.activeMove c, (s.mon c).request, (s.cab c).posZone, (s.cab (otherCrane c)).posZone with
  | some i, some targets, some z, some other =>
    decide ((s.move i).state = .reserving) &&
    decide ((targets.map Int.ofNat).foldl min z ≤ other ∧ other ≤ (targets.map Int.ofNat).foldl max z)
  | _, _, _, _ => false

/-- The runway block test, made "whenever a request is made, withdrawn or granted, and whenever a position zone changes"
(R168): posted once, until the test no longer holds. The detail holds crane 0's move number in bits 0 to 15 and crane 1's
in bits 16 to 31: R168 and R190 do not say which of the two is which (DESIGN CHOICE, log entry 92). -/
def testRunway (s : State) : State :=
  let mark (v : Bool) (s : State) : State := forCranes (fun c s => setCab c { s.cab c with blockedMark := v } s) s
  if s.blockedBy 0 ∧ s.blockedBy 1 then
    if (s.cab 0).blockedMark ∨ (s.cab 1).blockedMark then s
    else post .runwayBlocked .runway 0 (detail2 ((s.cab 0).queue.headD 0) ((s.cab 1).queue.headD 0)) (mark true s)
  else mark false s

/-! ### Instructions to a cab (R160) -/

/-- An instruction moves into the shifter, which sends its eight characters, when the shifter is empty and
cab-ready is active (R160). -/
def shiftCab (c : Fin 2) (s : State) : State :=
  let x := s.cab c
  match x.shifter, x.slot with
  | none, some ins => if x.cabReady then setCab c { x with shifter := some ⟨ins, ins.block⟩, slot := none } s else s
  | _, _ => s

/-- Place an instruction in the slot; one still waiting there is never sent (R160). -/
def placeInstruction (c : Fin 2) (ins : Instruction) (s : State) : State :=
  shiftCab c (setCab c { s.cab c with slot := some ins } s)

/-- A move's tag: the low byte of its number (section 8.4). -/
def Move.tag (m : Move) : Nat := m.number % 256

/-- HOLD and CANCEL "carry the move's tag and piece, with zone and load 0" (R160). -/
def Move.plain (m : Move) (kind : InstrKind) : Instruction := ⟨kind, m.tag, 0, m.piece, .none⟩

/-- The GOTO that a travel phase calls for (R157). -/
def Move.goto (m : Move) : Instruction :=
  match m.state with
  | .toPark => ⟨.goto, m.tag, m.placeZone, m.piece, .park⟩
  | .toPick => ⟨.goto, m.tag, m.pickZone.getD 0, m.piece, .pick⟩
  | _ => ⟨.goto, m.tag, m.placeZone, m.piece, .place⟩

/-! ### Grants (R157) and phases (R140) -/

/-- Hand the monitor a crane's phase: the span shrinks and the permits are evaluated (R140, R141), once, with none
between the change and the shrink (DESIGN CHOICE, log entry 46). -/
def setPhase (c : Fin 2) (s : State) : State :=
  let (phase, targets) := s.phaseOf c
  let m := { s.mon c with phase := phase, targets := targets }
  evalPermits c (setMon c { m with span := m.shrunk } s)

/-- A RESERVING move goes to its travel phase with its GOTO (R157). -/
def startTravel (c : Fin 2) (i : Fin 16) (s : State) : State :=
  let m := s.move i
  let next := if m.kind = .park then MoveState.toPark else if s.isLoaded m then .toPlace else .toPick
  let m := { m with state := next, waitTimer := none, travelTimer := some 0, arrived := false, withdrawing := false,
                    resume := none, gotoPlaced := true }
  setPhase c (placeInstruction c m.goto (setMove i m s))

/-- A grant handed to the Move Controller (R157). -/
def grantTaken (c : Fin 2) (s : State) : State :=
  match s.activeMove c with
  | some i => if (s.move i).state = .reserving then startTravel c i s else s
  | none => s

/-- Examine a crane's grant request (R138). A grant handed to the Move Controller has the runway tested (R168). -/
def examineRequest (c : Fin 2) (s : State) : State :=
  match (s.mon c).request with
  | some targets =>
    match s.fitSpan c targets with
    | some cand => grantTaken c (testRunway (setMon c { s.mon c with span := some cand, request := none } s))
    | none => s
  | none => s

/-- A take, where the tests of R137 allow one; the span has changed and the permits are evaluated (R141). -/
def takeFirst (c : Fin 2) (s : State) : State :=
  match s.takeSpan c with
  | some r => evalPermits c (setMon c { s.mon c with span := some r } s)
  | none => s

/-- Examine a crane's take, then its request (R137, R138). -/
def examineCrane (c : Fin 2) (s : State) : State := evalPermits c (examineRequest c (takeFirst c s))

/-- Hand a phase; when the span has changed, the other crane's take and request are examined (R140). -/
def tellPhase (c : Fin 2) (s : State) : State :=
  let told := setPhase c s
  if (told.mon c).span = (s.mon c).span then told else examineCrane (otherCrane c) told

/-- Hand a grant request; it replaces one that waits, and is examined at once (R138). With the monitor's answer known, so
that the request is seen to wait or is granted, the runway is tested (R168). -/
def requestGrant (c : Fin 2) (targets : List Nat) (s : State) : State :=
  testRunway (evalPermits c (examineRequest c (setMon c { s.mon c with request := some targets } s)))

/-- Withdraw a crane's grant request (R139); the runway is tested (R168). -/
def withdrawRequest (c : Fin 2) (s : State) : State := testRunway (setMon c { s.mon c with request := none } s)

/-! ### Suspension (R166) -/

/-- The crane's active move becomes SUSPENDED, unless it is QUEUED or suspended already (R166). -/
def suspendMove (c : Fin 2) (cause : Code) (s : State) : State :=
  match s.activeMove c with
  | none => s
  | some i =>
    let m := s.move i
    if m.state = .queued ∨ m.state = .suspended then s
    else
      let withdrawn := if m.state = .reserving then withdrawRequest c s else s
      let held := if m.gotoPlaced then placeInstruction c (m.plain .hold) withdrawn else withdrawn
      let m' := { m with state := .suspended, remembered := some m.state, waitTimer := none, travelTimer := none,
                         withdrawing := false, resume := none }
      tellPhase c (postMove .moveSuspended i (.ofCount cause.toNat) (setMove i m' held))

/-! ### Faults (R143, R144) -/

/-- A fault detected on a crane (R143): disarmed, latched with its condition, its move suspended. -/
def craneFault (c : Fin 2) (kind : FaultKind) (s : State) : State :=
  let disarmed := evalPermits c (setMon c { s.mon c with armed := false } s)
  let latched :=
    if kind ∈ (disarmed.mon c).latched then disarmed
    else conditionArises (.crane c) kind.bit
      (setMon c { disarmed.mon c with latched := (disarmed.mon c).latched ++ [kind] } disarmed)
  suspendMove c .craneFault latched

/-- Whether the OVERRUN test of a homed crane fails (R144). -/
def State.overruns (s : State) (c : Fin 2) : Bool :=
  match (s.mon c).posZone with
  | some z =>
    (s.mon c).homed &&
    (!s.onRunway z || ((s.mon c).span.isSome && !s.inSpan c z) || s.inSpan (otherCrane c) z)
  | none => false

/-- The OVERRUN test with what a failure brings (R144). Faults are detected while detecting (R143). R144 has the other
crane "keep its span", and its fault suspends its move (R143, R166), a phase change at which R140 shrinks the span to its
position zone: the model keeps the span through the fault itself and lets that phase change shrink it in the same step
(DESIGN CHOICE, log entry 81). -/
def overrunTest (c : Fin 2) (s : State) : State :=
  if s.overruns c ∧ (s.mon c).detecting then
    let inside := match (s.mon c).posZone with
      | some z => s.inSpan (otherCrane c) z
      | none => false
    let faulted := craneFault c .overrun s
    let emptied := examineCrane (otherCrane c) (evalPermits c (setMon c { faulted.mon c with span := none } faulted))
    if inside then craneFault (otherCrane c) .overrun emptied else emptied
  else s

/-- The position zone has taken a new value, or become known or not known (R135): the Move Controller is handed it and
tests the runway (R168), before the OVERRUN test; then the shrink, or the take with an empty span; the crane's own
request; the other crane's take and request. The permits are evaluated once the span has shrunk, not between the zone
change and the shrink of the same moment: R141 lists both changes and R140 gives them no time apart (DESIGN CHOICE, log
entry 46). -/
def positionChanged (c : Fin 2) (s : State) : State :=
  let tested := overrunTest c (testRunway s)
  let shrunk := evalPermits c (setMon c { tested.mon c with span := (tested.mon c).shrunk } tested)
  examineCrane (otherCrane c) (examineCrane c shrunk)

/-- Compute the position zone of a homed crane and act when it has changed (R135). -/
def updatePosition (c : Fin 2) (s : State) : State :=
  let m := s.mon c
  if m.homed ∧ m.posZone ≠ some m.zoneNow then positionChanged c (setMon c { m with posZone := some m.zoneNow } s)
  else s

/-- The ENCODER fault (R133): the crane loses its position and its span, and homes again. The fault clears the index
seen mark, as R133 says, also one set before the illegal transition: R134's "the marker then homes the crane at its count
edge" is read of a marker that becomes active after the fault (DESIGN CHOICE, log entry 61). -/
def encoderFault (c : Fin 2) (s : State) : State :=
  let faulted := craneFault c .encoder s
  positionChanged c (setMon c
    { faulted.mon c with homed := false, indexSeen := false, homingArmed := true, posZone := none, span := none } faulted)

/-! ### The encoder (R133, R134) -/

/-- The channel levels one step further: 00, 10, 11, 01 eastward (R133). -/
def stepChannels (a b : Bool) : Direction → Bool × Bool
  | .east => (!b, a)
  | .west => (b, !a)

/-- A step of the count that is not an illegal transition (R133, R134). -/
def countEdge (c : Fin 2) (amount : Int) (channels : Bool × Bool) (s : State) : State :=
  let m := { s.mon c with chanA := channels.1, chanB := channels.2, indexSeen := false }
  let next := wrap24 (m.count + amount)
  if (s.mon c).indexSeen ∧ m.homingArmed then
    updatePosition c (setMon c { m with count := m.indexRef, homingArmed := false, homed := true } s)
  else if (s.mon c).indexSeen ∧ m.homed ∧ (Config.slipCounts < next - m.indexRef ∨ Config.slipCounts < m.indexRef - next) then
    encoderFault c (setMon c m s)
  else updatePosition c (setMon c { m with count := next } s)

/-- One encoder step. -/
def encoderStep (c : Fin 2) (dir : Direction) (s : State) : State :=
  countEdge c (match dir with | .east => 1 | .west => -1) (stepChannels (s.mon c).chanA (s.mon c).chanB dir) s

/-- Both channels have changed: the count is left, and while detecting it is an ENCODER fault (R133). -/
def illegalTransition (c : Fin 2) (s : State) : State :=
  let m := s.mon c
  let seen := setMon c { m with chanA := !m.chanA, chanB := !m.chanB } s
  if m.detecting then encoderFault c seen else seen

/-- The index marker becomes active: the mark is set while detecting (R134). -/
def indexMarker (c : Fin 2) (s : State) : State :=
  if (s.mon c).detecting then setMon c { s.mon c with indexSeen := true } s else s

/-! ### Feedback, stops, timers and arming (R141 to R148) -/

/-- Judge the levels of a crane's feedback while detecting (R145). R145 gives no order of the two faults of one sample:
CONFLICT is taken before DISOBEY (DESIGN CHOICE, log entry 60). -/
def judgeFeedback (c : Fin 2) (s : State) : State :=
  if (s.mon c).detecting then
    let first := if (s.mon c).conflict then craneFault c .conflict s else s
    if (first.mon c).disobeys then craneFault c .disobey first else first
  else s

def feedbackChange (c : Fin 2) (p : Permit) (active : Bool) (s : State) : State :=
  judgeFeedback c (setMon c { s.mon c with feedback := setPermit (s.mon c).feedback p active } s)

/-- A permit's off timer passes 2 s (R142, R145). -/
def offTimerExpiry (c : Fin 2) (p : Permit) (s : State) : State :=
  let m := s.mon c
  if permitOf m.permits p then s
  else judgeFeedback c (setMon c
    { m with offTimers := setPermit m.offTimers p (max (permitOf m.offTimers p) (Config.disobeyTicks + 1)) } s)

/-- A stop input of a crane has been sampled: STOP while it is ARMED, and no permits (R141, R145). -/
def judgeStop (c : Fin 2) (s : State) : State :=
  let faulted := if s.stopActive c ∧ (s.mon c).armed ∧ (s.mon c).detecting then craneFault c .stop s else s
  evalPermits c faulted

def cabStopChange (c : Fin 2) (active : Bool) (s : State) : State :=
  judgeStop c (setMon c { s.mon c with cabStop := active } s)

/-- The yard stop changes (R145). It faults every armed crane at once, and the model faults crane 0 first, so that what
the suspension of its move frees may be granted to crane 1 before crane 1's own fault (DESIGN CHOICE, log entry 53). -/
def yardStopChange (active : Bool) (s : State) : State :=
  forCranes judgeStop { s with yardStop := active }

/-- A permit's block timer reaches 0 (R142). -/
def blockTimerExpiry (c : Fin 2) (p : Permit) (s : State) : State :=
  evalPermits c (setMon c { s.mon c with blockTimers := setPermit (s.mon c).blockTimers p 0 } s)

/-- A refused ARM: its result and its notice (R148). A crane that is ARMED when its second ARM is refused stays ARMED:
R148 speaks of a crane that "stays UNARMED" (DESIGN CHOICE, log entry 52). -/
def refuseArm (c : Fin 2) (result : Code) (s : State) : State :=
  post .armRefused .crane c.val (.ofCount result.toNat) (setMon c { s.mon c with armResult := result } s)

/-- An ARM request taken, or failed (R148). -/
def takeArm (c : Fin 2) (failed : Bool) (s : State) : State :=
  if failed then refuseArm c .memory s
  else
    match s.armVerdict c 1 with
    | .none => evalPermits c (setMon c { s.mon c with armResult := .armed, armed := true } s)
    | reason => refuseArm c reason s

/-- A release event for a crane: every latched condition is gone, and the levels are tested again (R146). The
armed flag stays as it stands: a crane whose alarm holds a latched fault is UNARMED already, and of an ARMED one,
whose alarm holds LINK_LOST or SEQUENCE alone, the model reads R146 as not disarming it (DESIGN CHOICE, log
entry 47). -/
def releaseCrane (c : Fin 2) (s : State) : State :=
  let kinds := (s.mon c).latched
  let emptied := kinds.foldl (fun s k => conditionGone (.crane c) k.bit s) (setMon c { s.mon c with latched := [] } s)
  if (emptied.mon c).detecting then
    let judged := judgeFeedback c emptied
    let outside := match (judged.mon c).posZone with
      | some z => (judged.mon c).homed && !judged.onRunway z
      | none => false
    if outside then craneFault c .overrun judged else judged
  else emptied

/-- SAFE: each crane becomes UNARMED without a fault, and its permits are no longer allowed (R150). -/
def cranesSafe (s : State) : State :=
  forCranes (fun c s => evalPermits c (setMon c { s.mon c with armed := false } s)) s

end Sys2Proof.Machine
end

