-- ==== Sys2Proof/Machine/Moves.lean ====
section
/-! DEFINITION. The Move Controller (R151 to R173): starting and resuming moves, their timers, the cab
link and its reports, the end of moves, intakes, and control requests. -/

namespace Sys2Proof.Machine

def State.withMoves (s : State) (u : MoveUnit) : State := { s with moves := u }

/-- Bit numbers of the Move Controller's conditions of a crane, after the five faults (section 9.4). -/
def sequenceBit : Nat := 5
def linkLostBit : Nat := 6

/-- A move leaves its queue (R155). -/
def leaveQueue (c : Fin 2) (number : Nat) (s : State) : State :=
  setCab c { s.cab c with queue := (s.cab c).queue.filter (fun n => decide (n ≠ number)) } s

/-! ### The end of a move (R170) -/

/-- Hand the next end group, each after the one before has completed (R170). The chain is one for all aborts: R170 orders
the groups of one abort, and the first group of a second abort waits for those of the first (DESIGN CHOICE, log entry
74). -/
def pumpEnds (s : State) : State :=
  match s.moves.endChain with
  | [] => s
  | _ :: _ => if s.moves.endBusy then s else handJob .moveEnd (s.withMoves { s.moves with endBusy := true })

/-- The slots a move claims: its source slot and its destination slot (R170). -/
def State.slotsOf (s : State) (m : Move) : List Nat :=
  match m.kind with
  | .park => []
  | .lift => if (s.slot? m.dest).isSome ∧ m.dest ≠ Config.bayCode then [m.dest] else []
  | _ => m.source :: (if (s.slot? m.dest).isSome ∧ m.dest ≠ Config.bayCode then [m.dest] else [])

/-- A move becomes ABORTED, leaves its queue and joins the chain of end groups (R170). -/
def endAborted (i : Fin 16) (reason : Code) (byHost notice : Bool) (s : State) : State :=
  let m := s.move i
  let m' := { m with state := .aborted, endReason := reason, remembered := none, waitTimer := none, travelTimer := none,
                     arrived := false, withdrawing := false, resume := none, gotoPlaced := false }
  let ended := leaveQueue m.crane m.number (s.putMove i m')
  let piece := if m.kind = .park then 0 else m.piece
  let chained := ended.withMoves
    { ended.moves with endChain := ended.moves.endChain ++ [⟨i, byHost, piece, s.slotsOf m⟩] }
  if notice then postMove .moveEnded i (detail2 MoveState.aborted.toNat reason.toNat) chained else chained

/-- End with REPLANNED each move the Stock Unit released (R125, R170). -/
def endReleased (numbers : List Nat) (notice : Bool) (s : State) : State :=
  numbers.foldl (fun s n => match s.entryOf n with | some i => endAborted i .replanned false notice s | none => s) s

/-- An abort: the end of a move without load (R170). -/
def abortMove (i : Fin 16) (reason : Code) (byHost : Bool) (s : State) : State :=
  let m := s.move i
  let withdrawn := if m.state = .reserving then withdrawRequest m.crane s else s
  let told := if m.gotoPlaced then placeInstruction m.crane (m.plain .cancel) withdrawn else withdrawn
  let ended := endAborted i reason byHost true told
  let released := if m.kind = .park then (ended, []) else releaseMove m.number m.piece ended
  pumpEnds (tellPhase m.crane (endReleased released.2 true released.1))

/-- The group of the head of the chain: the entry, the piece and the slots as they stand; after a host ABORT
also the control word NONE (R170). -/
def moveEndGroup (s : State) : Formed :=
  match s.moves.endChain with
  | [] => (s, none)
  | e :: _ =>
    let control : List (Nat × Word) := if e.byHost then [(13, 0)] else []
    let entry := recordSpan .moveTable e.entry.val (moveWords (s.move e.entry) ++ control)
    (if e.byHost then s.putMove e.entry { s.move e.entry with control := none } else s,
      some (entry :: s.pieceSpan e.piece ++ e.slots.flatMap s.slotSpan, .moveEnd e.entry))

/-- An end group has completed: a host ABORT's request ends, and the next group is handed (R170). -/
def moveEndDone (i : Fin 16) (s : State) : State :=
  match s.moves.endChain with
  | [] => s
  | e :: rest =>
    let ended := if e.byHost then s.putMove i { s.move i with ctrl := none } else s
    pumpEnds (ended.withMoves { ended.moves with endChain := rest, endBusy := false })

/-- A move becomes DONE (R162, R164): it leaves its queue and MOVE_ENDED is posted. -/
def endDone (i : Fin 16) (s : State) : State :=
  let m := s.move i
  let done := s.putMove i { m with state := .done, travelTimer := none, arrived := false, gotoPlaced := false }
  tellPhase m.crane (postMove .moveEnded i (detail2 MoveState.done.toNat Code.none.toNat) (leaveQueue m.crane m.number done))

/-! ### Starting, resuming, and the wait and travel timers (R156, R157, R166, R167) -/

/-- What a start and a resumption both need of the crane (R156, R166). -/
def State.craneServes (s : State) (c : Fin 2) : Bool :=
  let x := s.cab c
  s.running && x.armed && x.homed && decide (x.link = .up) && !x.sequence

/-- A head move enters RESERVING with its request (R156, R166). -/
def reserve (c : Fin 2) (i : Fin 16) (m : Move) (s : State) : State :=
  let set := tellPhase c (setMove i { m with state := .reserving, remembered := none } s)
  requestGrant c (set.targetsOf (set.move i)) set

/-- A head move enters RESERVING unless it is a DISPATCH without load whose piece has a hold: that one ends
ABORTED with reason PIECE_HELD (R156). -/
def enterReserving (c : Fin 2) (i : Fin 16) (m : Move) (s : State) : State :=
  let held : Bool := match s.piece? m.piece with
    | some p => decide (m.kind = .dispatch ∧ p.hold ≠ 0) && !s.isLoaded m
    | none => false
  if held then abortMove i .pieceHeld false s else reserve c i m s

/-- A queued head move whose start conditions all hold (R156). -/
def moveStart (c : Fin 2) (s : State) : State :=
  match s.activeMove c with
  | none => s
  | some i =>
    let m := s.move i
    if m.state = .queued ∧ m.accepted ∧ s.craneServes c ∧ s.startCondition m.number then
      enterReserving c i { m with waitTimer := some 0, resume := none } s
    else s

/-- The resume phase of a suspended move (R166). -/
def State.resumePhase (s : State) (m : Move) : MoveState :=
  if m.kind = .park then .toPark else if s.isLoaded m then .toPlace else .toPick

/-- A suspended move whose crane serves again (R166). -/
def moveResume (c : Fin 2) (s : State) : State :=
  match s.activeMove c with
  | none => s
  | some i =>
    let m := s.move i
    if m.state = .suspended ∧ s.craneServes c then
      enterReserving c i { m with resume := some (s.resumePhase m), waitTimer := if s.isLoaded m then none else some 0 } s
    else s

/-- The wait limit expires (R157): the request is withdrawn, and the monitor's answer decides. -/
def waitExpiry (c : Fin 2) (s : State) : State :=
  match s.activeMove c with
  | none => s
  | some i =>
    let m := s.move i
    if m.state = .reserving ∧ m.waitTimer.isSome then
      if (s.mon c).request.isSome then abortMove i .reserveTimeout false s else startTravel c i s
    else s

/-- Whether a move travels without having arrived (R167). -/
def Move.travelling (m : Move) : Bool :=
  match m.state with
  | .toPick => true
  | .toPark => true
  | .toPlace => !m.arrived
  | _ => false

/-- The travel limit expires (R167). -/
def travelExpiry (c : Fin 2) (s : State) : State :=
  match s.activeMove c with
  | none => s
  | some i =>
    let m := s.move i
    if m.travelling ∧ m.travelTimer.isSome then
      if s.isLoaded m then suspendMove c .travelTimeout s else abortMove i .travelTimeout false s
    else s

/-- A move goes to TO_PLACE, or reserves its place zone alone when that lies outside its span (R157). A redirect can take
a RESERVING move straight to TO_PLACE while its grant request waits: R139 and R171 do not say what becomes of the request,
and it is withdrawn (DESIGN CHOICE, log entry 73). -/
def goToPlace (c : Fin 2) (i : Fin 16) (s : State) : State :=
  let m := s.move i
  if s.inSpan c (m.placeZone : Int) then
    let m := { m with state := .toPlace, travelTimer := some 0, waitTimer := none, arrived := false, resume := none, gotoPlaced := true }
    tellPhase c (placeInstruction c m.goto (setMove i m (withdrawRequest c s)))
  else
    let m := { m with state := .reserving, travelTimer := none, waitTimer := none, arrived := false, resume := some .toPlace }
    requestGrant c [m.placeZone] (tellPhase c (setMove i m s))

/-- The lowering condition of an arrived move in TO_PLACE (R162). -/
def tryLower (c : Fin 2) (s : State) : State :=
  match s.activeMove c with
  | none => s
  | some i =>
    let m := s.move i
    if m.state = .toPlace ∧ m.arrived ∧ s.loweringCondition m then
      if (s.cab c).posZone = some (m.placeZone : Int) then
        tellPhase c (setMove i { m with state := .atPlace, travelTimer := none } s)
      else setMove i { m with arrived := false, travelTimer := some 0 } s
    else s

/-! ### Reports (R161 to R165) -/

/-- A stale report is dropped with a notice (R161). -/
def staleReport (c : Fin 2) (r : Report) (s : State) : State :=
  post .staleReport .crane c.val (detail2 r.kind.toNat r.tag) s

/-- The SEQUENCE latch is set; its condition arises if the latch was clear (R161, R165). -/
def setSequence (c : Fin 2) (s : State) : State :=
  if (s.cab c).sequence then s
  else conditionArises (.crane c) sequenceBit (setCab c { s.cab c with sequence := true } s)

/-- A report out of phase (R161). -/
def outOfPhase (c : Fin 2) (s : State) : State := suspendMove c .outOfPhase (setSequence c s)

/-- A release event for the latch (R161). -/
def releaseSequence (c : Fin 2) (s : State) : State :=
  if (s.cab c).sequence then conditionGone (.crane c) sequenceBit (setCab c { s.cab c with sequence := false } s) else s

/-- The zone a travelling move must reach (R162). -/
def Move.target (m : Move) : Nat :=
  match m.state with
  | .toPick => m.pickZone.getD 0
  | _ => m.placeZone

/-- An ARRIVED report for a travelling move (R162). One that fails a zone comparison is out of phase, also in TO_PLACE
with the arrived mark set, where the rule's last sentence has an ARRIVED fit and change nothing (DESIGN CHOICE, log
entry 55). -/
def arrivedReport (c : Fin 2) (i : Fin 16) (r : Report) (s : State) : State :=
  let m := s.move i
  if r.zone = m.target ∧ (s.cab c).posZone = some (m.target : Int) then
    match m.state with
    | .toPick => tellPhase c (setMove i { m with state := .atPick, travelTimer := none } s)
    | .toPark =>
      let done := endDone i s
      refresh .moveTable i.val (changedWords (moveWords m) (moveWords (done.move i))) done
    | _ => if m.arrived then s else tryLower c (s.putMove i { m with arrived := true, travelTimer := none })
  else outOfPhase c s

/-- A CANNOT report for a move beyond RESERVING (R165). With load the SEQUENCE condition arises before the move is suspended,
as for a report out of phase (R161), so ALARM_RAISED stands before MOVE_SUSPENDED: R165 gives no order (DESIGN CHOICE, log
entry 91). -/
def cannotReport (c : Fin 2) (i : Fin 16) (s : State) : State :=
  if s.isLoaded (s.move i) then suspendMove c .cabCannot (setSequence c s) else abortMove i .cabRefused false s

/-- Whether a report is stale for a crane's active move (R161). -/
def Report.stale (r : Report) (m : Move) : Bool :=
  decide (r.tag ≠ m.tag ∨ m.state = .suspended ∨ (r.kind = .cannot ∧ (m.state = .queued ∨ m.state = .reserving)))

/-- Apply a report that no group carries (R161 to R165). -/
def applyReport (c : Fin 2) (r : Report) (s : State) : State :=
  match s.activeMove c with
  | none => staleReport c r s
  | some i =>
    let m := s.move i
    if r.stale m then staleReport c r s
    else
      match r.kind, m.state with
      | .arrived, .toPick => arrivedReport c i r s
      | .arrived, .toPlace => arrivedReport c i r s
      | .arrived, .toPark => arrivedReport c i r s
      | .lifted, .hooked => goToPlace c i s
      | .landed, .atPlace => tellPhase c (setMove i { m with state := .landed } s)
      | .cannot, _ => cannotReport c i s
      | _, _ => outOfPhase c s

/-- A HOOKED report (R163): the pick with its group, or nothing when it does not fit. -/
def hookedGroup (c : Fin 2) (i : Fin 16) (r : Report) (s : State) : Option (State × List Span) :=
  let m := s.move i
  if m.state = .atPick ∧ 0 < r.load ∧ r.piece = m.piece ∧ (m.kind ≠ .lift ∨ s.liftGate m.piece) then
    match pick m.number m.piece s with
    | some (picked, spans) =>
      let hooked := tellPhase c (picked.putMove i { m with state := .hooked })
      some (hooked, recordSpan .moveTable i.val (moveWords (hooked.move i)) :: spans)
    | none => none
  else none

/-- An UNHOOKED report (R164): the landing with its group, or nothing when it does not fit. -/
def unhookedGroup (i : Fin 16) (s : State) : Option (State × List Span) :=
  let m := s.move i
  if m.state = .landed then
    match land m.number m.piece m.dest s with
    | some (landed, spans) =>
      let done := endDone i landed
      some (done, recordSpan .moveTable i.val (moveWords (done.move i)) :: spans)
    | none => none
  else none

/-- Take the next report off a crane's list. -/
def dropReport (c : Fin 2) (s : State) : State := setCab c { s.cab c with reports := (s.cab c).reports.drop 1 } s

/-- Whether an event already waits for admission. -/
def State.jobWaits (s : State) (j : Job) : Bool := decide (j ∈ s.path.kept ∨ j ∈ s.path.outbox)

/-- Take a crane's reports in list order (R161). A HOOKED or UNHOOKED stays at the head until the group
that applies it is handed. Outside RUNNING reports are dropped without notice (R173, log entry 16). -/
def takeReports (c : Fin 2) : Nat → State → State
  | 0, s => s
  | fuel + 1, s =>
    match (s.cab c).reports with
    | [] => s
    | r :: _ =>
      if s.running = false then takeReports c fuel (dropReport c s)
      else
        match r.kind with
        | .hooked => if s.jobWaits (.report c) then s else handJob (.report c) s
        | .unhooked => if s.jobWaits (.report c) then s else handJob (.report c) s
        | _ => takeReports c fuel (applyReport c r (dropReport c s))

/-- The group of the HOOKED or UNHOOKED at the head of a crane's list (R163, R164). One that does not fit is applied
without a group. The reports behind it are taken once the group has been handed (R161, `handed`). -/
def reportGroup (c : Fin 2) (s : State) : Formed :=
  match (s.cab c).reports with
  | [] => (s, none)
  | r :: _ =>
    let taken := dropReport c s
    let group : Option (State × List Span) :=
      match s.activeMove c with
      | none => none
      | some i =>
        if r.stale (s.move i) then none
        else match r.kind with
          | .hooked => hookedGroup c i r taken
          | .unhooked => unhookedGroup i taken
          | _ => none
    match group with
    | some (after, spans) => (after, some (spans, .nothing))
    | none => (applyReport c r taken, none)

/-! ### The cab link (R158, R159) -/

/-- A report from the eight characters of a block; not a valid block gives none (R158). -/
def reportOf (block : List RxChar) : Option Report :=
  match block with
  | [k, tag, zone, pieceHi, pieceLo, loadHi, loadLo, check] =>
    let sum := k.data + tag.data + zone.data + pieceHi.data + pieceLo.data + loadHi.data + loadLo.data
    if block.any (·.framing) ∨ check.data ≠ sum then none
    else (ReportKind.ofNat? k.data.toNat).map (fun kind =>
      ⟨kind, tag.data.toNat, zone.data.toNat, pieceHi.data.toNat * 256 + pieceLo.data.toNat,
        loadHi.data.toNat * 256 + loadLo.data.toNat⟩)
  | _ => none

/-- The report list after a valid block: "A STATUS block is taken as it arrives" (R161), and a block that finds
the list holding 4 is discarded (R158). -/
def CabSide.listed (x : CabSide) (r : Report) : List Report :=
  if r.kind ≠ .status ∧ x.reports.length < Config.reportsMax then x.reports ++ [r] else x.reports

/-- A valid block: the quiet timer restarts, the link is UP, and the report joins the list (R158, R159). R159 has the first
valid block "taken" make the link UP: the block is taken so as it arrives, also one that then waits in the list or finds it
full (DESIGN CHOICE, log entry 90). -/
def validBlock (c : Fin 2) (r : Report) (s : State) : State :=
  let x := s.cab c
  let up := setCab c { x with quietTimer := 0, link := .up, lostRuns := false, reports := x.listed r } s
  let told := if x.link = .lost then conditionGone (.crane c) linkLostBit up else up
  takeReports c Config.reportsMax told

/-- A block of a cab link has ended by its gap: one that is not valid is discarded (R158). -/
def endBlock (c : Fin 2) (block : List RxChar) (s : State) : State :=
  match reportOf block with
  | some r => validBlock c r s
  | none => s

/-- The line of a cab link, sample by sample: each gap ends the block in progress (R158). -/
def hearCab (c : Fin 2) : Nat → List Bool → State → State
  | 0, _, s => s
  | fuel + 1, samples, s =>
    let x := s.cab c
    let h := cabForm.listen x.rx x.block samples
    let heard := setCab c { x with rx := h.rx, block := if h.ended then [] else h.chars } s
    if h.ended then hearCab c fuel h.rest (endBlock c h.chars heard) else heard

/-- What a cab link's receiver takes from the line (R158). -/
def cabBlock (c : Fin 2) (samples : List Bool) (s : State) : State := hearCab c (samples.length + 1) samples s

/-- A block heard clean, behind the gap that ends a block in progress (R158; log entry 8). -/
def cleanBlock (c : Fin 2) (block : List RxChar) (s : State) : State :=
  let x := s.cab c
  endBlock c block (endBlock c x.block (setCab c { x with rx := LineReceiver.reset, block := [] } s))

/-- No valid block for 3 s (R159). -/
def quietExpiry (c : Fin 2) (s : State) : State :=
  if (s.cab c).link ≠ .lost then
    let lost := setCab c { s.cab c with link := .lost, lostTimer := 0, lostRuns := true } s
    suspendMove c .linkLost (conditionArises (.crane c) linkLostBit lost)
  else s

/-- The lost timer reaches 30 s (R159). In SAFE no release arrives at the Stock Unit (R130), so no move ends. -/
def lostExpiry (c : Fin 2) (s : State) : State :=
  if (s.cab c).lostRuns then
    let stopped := setCab c { s.cab c with lostRuns := false } s
    match stopped.activeMove c with
    | some i =>
      if (stopped.move i).state = .suspended ∧ stopped.isLoaded (stopped.move i) = false ∧ stopped.running then
        abortMove i .linkLost false stopped
      else stopped
    | none => stopped
  else s

/-! ### Intakes (R152 to R154) -/

/-- How a write of a ring entry's post and result word is judged (R152). -/
def State.postVerdict (s : State) (entry value : Nat) : Code :=
  if value = 0 then .none
  else if value = 1 then
    match s.moves.intake with
    | some k => if k.entry = entry then .busy else .order
    | none => if entry = s.moves.nextIndex then .none else .order
  else .range

/-- An order as its ring entry holds it (section 8.1). -/
structure Order where
  number : Nat
  kind : Nat
  choice : Nat
  piece : Nat
  dest : Nat
  waitLimit : Nat
  travelLimit : Nat
deriving DecidableEq, Repr

def orderOf (record : List Word) : Order :=
  let w (i : Nat) : Nat := (record.getD i 0).toNat
  ⟨w 0, w 1, w 2, w 3, w 4, w 5, w 6⟩

/-- The distance of a crane from a pick zone, when the crane is homed (R153). -/
def State.distance (s : State) (c : Fin 2) (zone : Nat) : Option Nat :=
  match (s.cab c).homed, (s.cab c).posZone with
  | true, some z => some (z - (zone : Int)).natAbs
  | _, _ => none

/-- The chosen crane (R153). -/
def State.chooseCrane (s : State) (o : Order) : Fin 2 :=
  if o.choice = 0 then 0
  else if o.choice = 1 then 1
  else
    match s.piece? o.piece with
    | some p =>
      if p.state = .free then 0
      else
        match s.distance 0 p.zone, s.distance 1 p.zone with
        | some a, some b => if b < a then 1 else 0
        | none, some _ => 1
        | _, none => 0
    | none => 0

/-- The mirror entry a new move takes (R154). -/
def State.freeEntry (s : State) : Option (Fin 16) :=
  match (List.finRange 16).find? (fun i => decide ((s.move i).state = .empty)) with
  | some i => some i
  | none =>
    (sortBy (fun i => (s.move i).serial)
      ((List.finRange 16).filter (fun i => decide ((s.move i).state = .done ∨ (s.move i).state = .aborted)))).head?

/-- The checks of an order (R153): the first that fails, or NONE. -/
def State.orderVerdict (s : State) (o : Order) : Code :=
  match MoveKind.ofNat? o.kind with
  | none => .badOrder
  | some kind =>
    if o.number = 0 ∨ 65535 < o.number ∨ o.waitLimit < 1 ∨ 3600 < o.waitLimit ∨ o.travelLimit < 10 ∨ 900 < o.travelLimit then
      .badOrder
    else if (s.entryOf o.number).isSome then .duplicate
    else if 2 < o.choice ∨ (kind = .park ∧ o.choice = 2) then .badCrane
    else if kind = .park ∧ s.dir.zones ≤ o.dest then .badDest
    else if s.freeEntry.isNone then .tableFull
    else if Config.queueMax ≤ (s.cab (s.chooseCrane o)).queue.length then .queueFull
    else if kind = .park then .none
    else s.claimVerdict kind o.piece o.dest

/-- The move an accepted order becomes (R154). -/
def State.newMove (s : State) (o : Order) (kind : MoveKind) : Move :=
  let park := decide (kind = .park)
  let p := s.piece? o.piece
  let source := match p with
    | some p => if park then 0 else if kind = .lift then p.bed else p.slot
    | none => 0
  { Move.reset with
    number := o.number, kind := kind, crane := s.chooseCrane o, piece := o.piece, dest := o.dest,
    waitLimit := o.waitLimit, travelLimit := o.travelLimit, source := source,
    pickZone := if park then none else p.map (·.zone), placeZone := if park then o.dest else s.destZone o.dest,
    serial := s.moves.serial, state := .queued }

/-- Accept an order: claims, mirror entry, queue (R121, R154). R154 does not say what becomes of a control request or an end
group still in progress on a DONE or ABORTED entry that is taken: the request is dropped without a result or a notice, and an
end group not yet formed carries the words of the new move (DESIGN CHOICE, log entry 89). -/
def acceptOrder (o : Order) (kind : MoveKind) (i : Fin 16) (s : State) : State :=
  let m := s.newMove o kind
  let claimed := if kind = .park then s else grantClaims o.number kind o.piece o.dest s
  let filled := (claimed.withMoves { claimed.moves with serial := claimed.moves.serial + 1 }).putMove i m
  setCab m.crane { filled.cab m.crane with queue := (filled.cab m.crane).queue ++ [o.number] } filled

def setIntake (k : Option Intake) (s : State) : State := s.withMoves { s.moves with intake := k }

/-- An intake with its result formed waits for its group (R154). -/
def formIntake (k : Intake) (s : State) : State :=
  handJob .intakeResult (setIntake (some { k with stage := .waitingSlot }) s)

/-- The POST event of an intake, or a failed request (R153). With the write or the read failed no order is known, and
the order number in MOVE_REJECTED's detail is 0: R154 does not give it (DESIGN CHOICE, log entry 54). -/
def intakePosted (entry : Nat) (failed : Bool) (s : State) : State :=
  let k : Intake := ⟨entry, .readInFlight, .none, 0, none⟩
  if failed then formIntake { k with result := .memory } s
  else askRecord (.moveIntake entry) .moveRing entry (setIntake (some k) s)

/-- The ring entry's read returns, or fails: the order is examined (R153). A failed read leaves the order number 0
(log entry 54). -/
def intakeExamined (data : Option (List Word)) (s : State) : State :=
  match s.moves.intake with
  | some k =>
    if k.stage = .readInFlight then
      match data with
      | none => formIntake { k with result := .memory } s
      | some record =>
        let o := orderOf record
        match s.orderVerdict o, MoveKind.ofNat? o.kind, s.freeEntry with
        | .none, some kind, some i =>
          formIntake { k with result := .accepted, order := o.number, table := some i } (acceptOrder o kind i s)
        | reason, _, _ => formIntake { k with result := reason, order := o.number } s
    else s
  | none => s

/-- The index after the next one (R152). -/
def State.indexAfter (s : State) : Nat := if s.moves.nextIndex + 1 < s.moves.ringSize then s.moves.nextIndex + 1 else 0

/-- The acceptance group, or the result group of a rejection (R154). An order number above 65,535 does not fit the 16 bits
that the detail of MOVE_REJECTED has for it: its low 16 bits stand there (DESIGN CHOICE, log entry 88). -/
def intakeGroup (s : State) : Formed :=
  match s.moves.intake with
  | none => (s, none)
  | some k =>
    let ring := recordSpan .moveRing k.entry [(7, .ofCount k.result.toNat)]
    let index := recordSpan .directory 0 [(40, .ofCount s.indexAfter)]
    let inFlight := setIntake (some { k with stage := .resultInFlight }) s
    match k.table with
    | some i =>
      let m := s.move i
      let entry := recordSpan .moveTable i.val (moveWords m ++ [(13, 0), (14, 0)])
      let piece := if m.kind = .park then 0 else m.piece
      (inFlight, some (ring :: index :: entry :: s.pieceSpan piece ++ (s.slotsOf m).flatMap s.slotSpan, .intake))
    | none =>
      (post .moveRejected .ring k.entry (detail3 k.order 1 k.result.toNat) inFlight, some ([ring, index], .intake))

/-- The intake's group has completed (R152, R154). -/
def intakeDone (s : State) : State :=
  match s.moves.intake with
  | some k =>
    let ended := s.withMoves { s.moves with intake := none, nextIndex := s.indexAfter }
    match k.table with
    | some i => ended.putMove i { ended.move i with accepted := true }
    | none => ended
  | none => s

/-! ### Control requests (R169 to R171) -/

/-- Whether a move's state allows a redirect (R169). -/
def State.redirectable (s : State) (m : Move) : Bool :=
  match m.state with
  | .hooked => true
  | .toPlace => true
  | .atPlace => true
  | .reserving => decide (m.resume = some .toPlace)
  | .suspended => s.isLoaded m
  | _ => false

/-- How a write of a control word is judged (R169): a reason, or NONE when it passes. -/
def State.controlVerdict (s : State) (i : Fin 16) (value : Nat) : Code :=
  let m := s.move i
  if 2 < value then .range
  else if m.ctrl ≠ none then .busy
  else
    match CtrlCode.ofNat? value with
    | none => .none
    | some .abort =>
      if m.state.live = false ∨ m.accepted = false then .state
      else if s.isLoaded m then .loadOnHook else .none
    | some .redirect => if s.redirectable m then .none else .state

/-- A control request ends with a result other than ACCEPTED: its group is to be handed (R170, R171). -/
def refuseControl (i : Fin 16) (code : CtrlCode) (result : Code) (s : State) : State :=
  handJob (.ctrlResult i) (s.putMove i { s.move i with ctrl := some ⟨code, .waitingSlot, result, 0⟩ })

/-- A control request handed by the Path Unit, or a failed one (R170, R171). -/
def controlPosted (i : Fin 16) (code : CtrlCode) (failed : Bool) (s : State) : State :=
  let m := s.move i
  if failed then refuseControl i code .memory s
  else
    match code with
    | .redirect =>
      askRecord (.redirect i) .moveTable i.val (s.putMove i { m with ctrl := some ⟨.redirect, .readInFlight, .none, 0⟩ })
    | .abort =>
      if m.state.live = false then refuseControl i .abort .state s
      else if s.isLoaded m then refuseControl i .abort .loadOnHook s
      else
        abortMove i .host true (s.putMove i
          { m with ctrl := some ⟨.abort, .resultInFlight, .accepted, 0⟩, ctrlResult := resultWord CtrlCode.abort.toNat .accepted })

/-- The redirect's read returns, or fails (R171). -/
def redirectExamined (i : Fin 16) (data : Option (List Word)) (s : State) : State :=
  match (s.move i).ctrl with
  | some r =>
    if r.stage = .readInFlight then
      match data with
      | none => refuseControl i .redirect .memory s
      | some record =>
        let dest := (record.getD 14 0).toNat
        handJob (.redirect i)
          (s.putMove i { s.move i with newDest := dest, ctrl := some { r with stage := .waitingSlot, dest := dest } })
    else s
  | none => s

/-- The group of a control result other than ACCEPTED (R170, R171). -/
def refusedControlGroup (i : Fin 16) (r : CtrlRequest) (s : State) : Formed :=
  let m := s.move i
  let result := resultWord r.code.toNat r.result
  (postMove .moveRejected i (detail3 m.number r.code.toNat r.result.toNat)
    (s.putMove i { m with ctrl := some { r with stage := .resultInFlight }, control := none, ctrlResult := result }),
    some ([recordSpan .moveTable i.val [(13, 0), (15, result)]], .control i))

def ctrlResultGroup (i : Fin 16) (s : State) : Formed :=
  match (s.move i).ctrl with
  | some r => refusedControlGroup i r s
  | none => (s, none)

/-- How a redirected move goes on (R171). -/
def redirectedMove (i : Fin 16) (s : State) : State :=
  let m := s.move i
  match m.state with
  | .toPlace => goToPlace m.crane i s
  | .atPlace => goToPlace m.crane i s
  | .reserving => goToPlace m.crane i s
  | _ => tellPhase m.crane s

/-- The redirect group (R171): the state is judged again, then the Stock Unit's answer is the result. The group of an
accepted redirect writes the control word NONE too, and the mirror's control word with it: R171 says so of the other results
alone (DESIGN CHOICE, log entry 75). -/
def redirectGroup (i : Fin 16) (s : State) : Formed :=
  let m := s.move i
  match m.ctrl with
  | none => (s, none)
  | some r =>
    let verdict := if s.redirectable m then s.redirectVerdict m r.dest else .state
    match verdict with
    | .none =>
      let claimed := redirectClaims m r.dest s
      let m' := { m with dest := r.dest, placeZone := s.destZone r.dest, control := none,
                         ctrl := some { r with stage := .resultInFlight, result := .accepted },
                         ctrlResult := resultWord CtrlCode.redirect.toNat .accepted }
      let gone := redirectedMove i (claimed.putMove i m')
      let slots := [m.dest, r.dest].filter (fun d => decide (d ≠ Config.bayCode))
      (gone, some (recordSpan .moveTable i.val (moveWords (gone.move i) ++ [(13, 0)]) ::
        gone.pieceSpan m.piece ++ slots.flatMap gone.slotSpan, .control i))
    | reason => refusedControlGroup i { r with result := reason } s

def controlDone (i : Fin 16) (s : State) : State := s.putMove i { s.move i with ctrl := none }

/-! ### SAFE (R173) -/

/-- SAFE: active moves are suspended, the intake and every control request are dropped (R173). Both cranes' requests
are withdrawn before a span shrinks, so that no move is granted its span on the way (R139: a withdrawal and a grant reach a
request in either order). Crane 0's move is suspended first: R173 gives no order (DESIGN CHOICE, log entry 49). -/
def movesSafe (s : State) : State :=
  let suspended := forCranes (fun c s => suspendMove c .safeEntry s) (forCranes withdrawRequest s)
  let dropped := forMoves (fun i s => s.putMove i { s.move i with ctrl := none }) suspended
  dropped.withMoves { dropped.moves with intake := none, endChain := [], endBusy := false }

end Sys2Proof.Machine
end

