-- ==== Sys2Proof/Machine/Groups.lean ====
section
/-! DEFINITION. Commit groups (R38 to R40): forming them from the owners' state, admission with the
refreshes of their records taken in, completion, and what every command ends with. -/

namespace Sys2Proof.Machine

/-! ### Forming a group (log entry 3) -/

/-- The group an owner's event produces, formed from the owner's state, with the state after its
hand-over; none when the event has no group any more. -/
def form (j : Job) (s : State) : Formed :=
  match j with
  | .bedRequest b => bedRequestGroup b s
  | .bedEvent b => bedEventGroup b s
  | .pieceResult n => pieceResultGroup n s
  | .enableFix n => match enableFixSpans n s with | [] => (s, none) | spans => (s, some (spans, .nothing))
  | .takeResult b => takeResultGroup b s
  | .takeRefused b =>
    match takeRefusedGroup b s with
    | some (after, spans, c) => (after, some (spans, c))
    | none => (s, none)
  | .notices => (s, some s.notices.group)
  | .intakeResult => intakeGroup s
  | .report c => reportGroup c s
  | .moveEnd => moveEndGroup s
  | .ctrlResult i => ctrlResultGroup i s
  | .redirect i => redirectGroup i s

/-! ### Admission (R38, R40) -/

/-- Whether a group of these spans is admitted for a party (R38). After a restart event none is (R49). -/
def State.admissible (s : State) (p : Party) (spans : List Span) : Bool :=
  decide (spans.length ≤ Config.groupSpans) && s.slotFor p && !s.takenTouches spans &&
  !s.safe && !s.dir.restartPending

/-- A slot's word joins the span for its record, unless the group itself writes it (R40). -/
def growSpans (r : Region) (index : Nat) (word : Nat) (v : Word) : List Span → List Span
  | [] => []
  | sp :: rest => if sp.touches ⟨r, index⟩ then sp.grow word v :: rest else sp :: growSpans r index word v rest

def absorbSlot (x : RefreshSlot) (spans : List Span) : List Span :=
  x.words.foldl (fun acc w =>
    let word := x.index * x.region.recLen + w.1
    if acc.any (fun sp => decide (sp.region = x.region) && sp.writes word) then acc
    else growSpans x.region x.index word w.2 acc) spans

/-- Take the unsent slots of a group's records into its spans (R40). -/
def absorb (g : Group) : List OwnItem → Group × List OwnItem
  | [] => (g, [])
  | .refresh x :: rest =>
    if g.touches ⟨x.region, x.index⟩ then absorb { g with spans := absorbSlot x g.spans } rest
    else
      let done := absorb g rest
      (done.1, .refresh x :: done.2)
  | item :: rest =>
    let done := absorb g rest
    (done.1, item :: done.2)

/-- A group enters the queue at the tail, or a twin copy group at the head (R33, R37). -/
def enterGroup (atHead : Bool) (g : Group) (s : State) : State :=
  let taken := absorb g s.path.queue
  s.withPath { s.path with queue := if atHead then .group taken.1 :: taken.2 else taken.2 ++ [.group taken.1] }

/-- What an owner goes on to once its event has been settled, its group admitted or none needed: the next deferred
event of a bed or the intake read that waited (R7), and the next reports of a crane's list (R161). What these hand
enters the queue behind the group (R40). -/
def handed (j : Job) (s : State) : State :=
  match j with
  | .bedEvent b => afterEvent b s
  | .report c => takeReports c Config.reportsMax s
  | _ => s

/-- Settle an event: its group is admitted, or the owner keeps the event (R28, R38). An event handed in SAFE is
dropped: no group is admitted there (R48). With `yields` the admission leaves the record to a waiting transfer that
examining would take: the event is kept, and TAKE_TRANSFER or COMMIT_GROUP_ADMIT says which of the two comes first. -/
def settleJob (yields : Bool) (j : Job) (s : State) : State :=
  let formed := form j s
  match formed.2 with
  | none => handed j (formed.1.leaveSlotWait (.owner j))
  | some (spans, completion) =>
    if s.admissible (.owner j) spans && !(yields && s.meetsTaking spans) then
      handed j (enterGroup false ⟨completion, spans⟩ (formed.1.leaveSlotWait (.owner j)))
    else if s.safe then s.leaveSlotWait (.owner j)
    else
      let kept := s.withPath { s.path with kept := s.path.kept ++ [j] }
      if s.slotFor (.owner j) then kept else kept.joinSlotWait (.owner j)

/-- Try an event's group as it is handed. A hold that the same command has released lets the waiting transfer be
examined (R27), so a group on a record that transfer touches is not admitted before the sender has said which comes first
(R28; section 2.11, steps 7 to 10; log entry 69). -/
def tryJob (j : Job) (s : State) : State := settleJob true j s

/-- Try every event handed within a command, in the order handed. -/
def tryOutbox : Nat → State → State
  | 0, s => s
  | fuel + 1, s =>
    match s.path.outbox with
    | [] => s
    | j :: rest => tryOutbox fuel (tryJob j (s.withPath { s.path with outbox := rest }))

/-- More events than one command can hand. -/
def outboxFuel : Nat := 120

/-- Whether a kept event can be settled now: its group is admissible, or it has none any more. -/
def State.settles (s : State) (j : Job) : Bool :=
  match (form j s).2 with
  | none => true
  | some (spans, _) => s.admissible (.owner j) spans

/-- Settle one kept event. -/
def retryJob (j : Job) (s : State) : State :=
  settleJob false j (s.withPath { s.path with kept := s.path.kept.filter (fun k => decide (k ≠ j)) })

/-- Whether a kept event's group meets the taking of the waiting transfer (R28). -/
def State.jobMeetsTaking (s : State) (j : Job) : Bool :=
  match (form j s).2 with
  | some (spans, _) => s.meetsTaking spans
  | none => false

/-- Whether a free slot serves a party of the slot waiting list: an owner's event that can be settled, and whose group
does not meet the taking of the waiting transfer (R28), a host WRITE for which a slot is there. -/
def State.serves (s : State) (p : Party) : Bool :=
  match p with
  | .owner j => s.settles j && !s.jobMeetsTaking j
  | .hostWrite => s.slotFor .hostWrite

/-- A party takes its slot and leaves the list: an owner's group is admitted, for a host WRITE the slot is reserved
(R38). -/
def serve (p : Party) (s : State) : State :=
  match p with
  | .owner j => retryJob j s
  | .hostWrite =>
    match s.host.up with
    | some u => ({ s with host := { s.host with up := some { u with reserved := true } } }).leaveSlotWait .hostWrite
    | none => s.leaveSlotWait .hostWrite

/-- Hand free slots on down the slot waiting list, as often as a party can take one. -/
def handSlots : Nat → State → State
  | 0, s => s
  | fuel + 1, s =>
    match s.path.slotWait.find? (fun p => s.serves p) with
    | some p => handSlots fuel (serve p s)
    | none => s

/-- A slot has freed: it is handed to the head of the slot waiting list, and a slot that the head has no use for any
more is handed on to the next party (R38). An owner whose group is still kept out, by a taken transfer (R28) or by a
pending restart (R49), keeps its place and a slot stays free for it: R38 does not say what becomes of the slot
(DESIGN CHOICE, log entry 39). So does an owner whose group meets the taking of the waiting transfer (log entry 69). -/
def handSlot (s : State) : State := handSlots s.path.slotWait.length s

/-- Admit the first kept event whose group can be admitted (R38). Of several events that a taken transfer has kept out
(R28), none of them on the slot waiting list, R38 does not say which is admitted first once the transfer has its response:
it is the one kept first (DESIGN CHOICE, log entry 71). A slot that stays free with the event gone from the slot waiting
list is handed on. -/
def admitKept (s : State) : State :=
  match s.path.kept.find? (fun j => s.settles j) with
  | some j => handSlot (retryJob j s)
  | none => s

/-- A kept event for which no slot is free is recorded at the tail of the slot waiting list, whatever first
kept it (R38). -/
def enlistJob (s : State) (j : Job) : State := if s.slotFor (.owner j) then s else s.joinSlotWait (.owner j)

def enlistKept (s : State) : State := s.path.kept.foldl enlistJob s

/-! ### Completion (R39) -/

/-- What the owner does with a completion event (R39). The twin copy's is the Path Unit's own. -/
def groupDone (c : Completion) (s : State) : State :=
  match c with
  | .bedPart b freed => bedPartDone b freed s
  | .bedResult b freed change => bedResultDone b freed change s
  | .bedEvent b change => bedEventDone b change s
  | .pieceResult n => pieceResultDone n s
  | .take b => takeDone b s
  | .notices count head => noticesDone count head s
  | .intake => intakeDone s
  | .moveEnd i => moveEndDone i s
  | .control i => controlDone i s
  | .twin => s
  | .nothing => s

/-! ### What every command ends with -/

/-- Whether an event that belongs to the last answer is still to be sent: the completion of a group (R39), the hand-over
of a read (R41), the admission of a kept event's group (R38), or the taking of a transfer that nothing keeps waiting
any more (R27), to which the own stream would yield. -/
def State.eventDue (s : State) : Bool :=
  !s.path.answered.isEmpty || !s.path.returned.isEmpty || s.path.kept.any (fun j => s.settles j) ||
  (decide (s.path.lastServed = .own) && (match s.host.up with | some u => s.waitsFree u | none => false))

/-- Whether the memory port waits between two own items. A group completes, a read is handed and the waiting transfer is
examined when the last burst is answered (R27, R39, R41), and each of these is a command of the table: until the sender
has sent it, the next own item is not begun. Section 2.11, steps 7 to 11, goes on so: the READ is issued before the
queued refresh, and the result group takes the refresh in (DEDUCED, log entry 84). With a host transfer taken and not yet
issued the port never waits: one of the two streams is issued at once (R42), so that a WRITE judged before a swap is done
at memory before the swap's read is issued (R97). -/
def State.portAwaits (s : State) : Bool := s.path.current.isNone && !s.hostCandidate && s.eventDue

/-- Give a free memory port to a candidate (R42), unless it waits for an event that is due. -/
def givePort (s : State) : State := if s.portAwaits then s else arbitrate s

/-- The events handed are tried, arrived moves are lowered when their condition has come to be met
(R162), a notice group is handed (R176), ATTN is driven (R178), kept events that find no slot are put on the list (R38),
and a free memory port is given to a candidate (R42). R176 says when a notice group is handed, but not where it stands
among the groups of other owners: the model hands it once, at the command's end, behind every group that the command
has handed, with all the notices posted in it (DESIGN CHOICE, log entry 83). -/
def finish (s : State) : State :=
  let lowered := forCranes tryLower (tryOutbox outboxFuel s)
  givePort (enlistKept (evaluateAttn (tryOutbox outboxFuel (handNotices lowered))))

end Sys2Proof.Machine
end

