-- ==== Sys2Proof/Machine/Lifecycle.lean ====
section
/-! DEFINITION. Leaving LOADING and RUNNING (R183 to R188): SAFE entry, what the field blocks start with
when loading has ended, the restart event, and works time. -/

namespace Sys2Proof.Machine

def State.withDir (s : State) (d : DirectoryUnit) : State := { s with dir := d }

/-- Change the Directory Unit's lifecycle words and refresh those that change (R183). -/
def setLifecycle (d : DirectoryUnit) (s : State) : State :=
  refreshDirectory (changedWords (lifecycleWords s.dir) (lifecycleWords d)) (s.withDir d)

/-- Whether an item of the queue survives SAFE entry: "refresh content of the directory record" (R44). -/
def OwnItem.staysInSafe : OwnItem → Bool
  | .refresh x => decide (x.region = .directory)
  | _ => false

/-- Every item not yet begun is dropped but the directory's refresh content, the slot waiting list is emptied
(R44, R48), and the read of a take and a swap read are dropped at whatever stage they are (R95, R109). A refresh of
another record that has begun goes on to its last burst, as a begun group does, and so does any other read: R48 speaks
of the group alone (DESIGN CHOICE, log entry 40). -/
def dropUnbegun (s : State) : State :=
  s.withPath { s.path with
    queue := s.path.queue.filter OwnItem.staysInSafe, kept := [], outbox := [], slotWait := [],
    current := match s.path.current with | some c => if c.item.droppedInSafe then none else some c | none => none,
    returned := s.path.returned.filter (fun r => !r.read.purpose.droppedInSafe) }

/-- When the lifecycle leaves LOADING: loops start and cranes home and detect, for each block whose load
completed cleanly (R71, R149). The feedback inputs are judged as the detecting flag is set: R145 samples them on the short
tick, and a CONFLICT that already stands is faulted here, within LOADING_END or the SAFE entry from LOADING, as the model
judges the feedback at each change of an input and not at each tick (DESIGN CHOICE, log entry 82). -/
def startField (s : State) : State :=
  let loops := if s.rosterLoaded then forLoops startLoop s else s
  if loops.cranesLoaded then
    forCranes (fun c s =>
      judgeFeedback c (setMon c { s.mon c with homingArmed := true, detecting := true, blockTimers := .all 0,
                                               offTimers := .all 0 } s)) loops
  else loops

/-- Hand the change to SAFE to every block (R187). -/
def blocksSafe (s : State) : State :=
  stockSafe (curingSafe (bedsSafe (movesSafe (cranesSafe (steamSafe s)))))

/-- The lifecycle enters SAFE (R187), from LOADING as R185 gives. In SAFE already, nothing changes. -/
def enterSafe (cause : SafeCause) (s : State) : State :=
  if s.safe then s
  else
    let fromLoading := decide (s.dir.lifecycle = .loading)
    let entered := setLifecycle { s.dir with lifecycle := .safe, safeCause := cause } (dropUnbegun s)
    let stopped := blocksSafe { entered with load := { entered.load with phase := .idle, awaited := [], data := [] } }
    if fromLoading then startField stopped else stopped

/-- Loading ends in SAFE with a load result (R184, R185). -/
def failLoad (cause : SafeCause) (code : Code) (region index : Nat) (s : State) : State :=
  enterSafe cause (setLifecycle { s.dir with loadCode := code, loadRegion := region, loadIndex := index } s)

/-- A RESTART or SAFE request taken (R186 to R188). A SAFE request in SAFE has no effect, nor has a
RESTART while one is pending. -/
def takeLifecycle (safe : Bool) (s : State) : State :=
  if safe then (if s.running then enterSafe .request s else s)
  else s.withDir { s.dir with restartPending := true }

/-- The write-back of works time, whose refresh "is admitted in every lifecycle state" (R189): also before the
directory has been read with data. -/
def writeBack (s : State) : State :=
  let counted := s.withDir { s.dir with writeBack := 0 }
  counted.withPath { counted.path with queue := joinQueue .directory 0 [(22, s.dir.worksTime)] counted.path.queue }

/-- One long tick of works time (R189). R189 does not say whether the write-back count advances before the first directory
read after a power-on reset has ended: it advances while the works time counts, and not before (DESIGN CHOICE, log entry
76). -/
def countWorksTime (s : State) : State :=
  if s.dir.counting then
    let counted := s.withDir { s.dir with worksTime := s.dir.worksTime + 1, writeBack := s.dir.writeBack + 1 }
    if 60 ≤ counted.dir.writeBack then writeBack counted else counted
  else s

end Sys2Proof.Machine
end

