-- ==== Sys2Proof/Machine/Requests.lean ====
section
/-! DEFINITION. The hand-over of requests and acknowledgements to their owners (R34), and of the
requests of a write that the memory did not confirm (R35). -/

namespace Sys2Proof.Machine

/-- An acknowledgement taken (R180): it has effect while the alarm is SEEN; then the releases of a
probe (R58) or a crane (R146, then R161). -/
def takeAck (r : AlarmRef) (s : State) : State :=
  if (s.alarm r).state = .seen then
    let acked := acknowledgeAlarm r s
    match r with
    | .probe n => releaseProbe n acked
    | .crane c => releaseSequence c (releaseCrane c acked)
    | .bed _ => acked
    | .loop _ => acked
  else s

/-- CLEAR written to the memory fault clear word: "It clears the record when it holds a fault" (R46). -/
def clearFault (s : State) : State := if s.path.fault.isSome then setFault none s else s

/-- An event handed in RUNNING to the owner that passed its word (R34). -/
def takeRequest (e : HostEvent) (s : State) : State :=
  match e with
  | .lifecycle safe => takeLifecycle safe s
  | .heat swap => if swap then takeSwap s else takeCancel s
  | .tail t => takeTail t s
  | .faultClear => clearFault s
  | .bed b code => bedPosted b code false s
  | .take b => takeRequested b false s
  | .enable n on => takeEnable n on s
  | .piece p code => piecePosted p code false s
  | .arm c => takeArm c false s
  | .intake n => intakePosted n false s
  | .control i code => controlPosted i code false s
  | .ack r => takeAck r s

/-- Hand an event (R34). In SAFE the lifecycle request and the memory fault clear keep their meaning
(R46, R48); every other event that arrives outside RUNNING is dropped (R23, R130, R148; log entry 22). -/
def handEvent (s : State) (e : HostEvent) : State :=
  match e with
  | .lifecycle safe => takeLifecycle safe s
  | .faultClear => clearFault s
  | e => if s.running then takeRequest e s else s

/-- A failed request (R35), as each owner's chapter gives it: R6, R53, R77, R100, R114, R148, R153, R170,
R171, R177. A failed lifecycle request and a failed acknowledgement are not applied (R35, R186). -/
def takeFailed (e : HostEvent) (s : State) : State :=
  match e with
  | .bed b code => bedPosted b code true s
  | .take b => takeRequested b true s
  | .enable n _ => handJob (.enableFix n) s
  | .piece p code => piecePosted p code true s
  | .arm c => takeArm c true s
  | .intake n => intakePosted n true s
  | .control i code => controlPosted i code true s
  | .heat _ => heatFailed s
  | .tail _ => refreshDirectory [(25, .ofCount s.notices.tail)] s
  | .lifecycle _ => s
  | .faultClear => s
  | .ack _ => s

/-- Hand a failed request. In SAFE only the refresh of the tail word is handed (R182); every other
failed request is dropped, as the request itself would be (log entry 22). -/
def failEvent (s : State) (e : HostEvent) : State :=
  match e with
  | .tail t => takeFailed (.tail t) s
  | e => if s.running then takeFailed e s else s

/-- "It hands them in the address order of the words" (R34). -/
def handEvents (es : List HostEvent) (s : State) : State := es.foldl handEvent s

def failEvents (es : List HostEvent) (s : State) : State := es.foldl failEvent s

end Sys2Proof.Machine
end

