-- ==== Sys2Proof/Machine/Judge.lean ====
section
/-! DEFINITION. The judging of a host WRITE during RUNNING (R29 to R31): the judged words, the class of
each word, and each owner's answer against the record as it would stand after the transfer. -/

namespace Sys2Proof.Machine

/-- An owner's answer for one word (R29). A request stands for an acknowledgement too. -/
inductive Answer where
  | pass
  | twin (w : WordRef)
  | request (e : HostEvent)
  | refuse (reason : Code)
deriving DecidableEq, Repr

/-- A judged word: "the words of the transfer that lie in a window and have at least one byte enabled" (R29). -/
structure JudgedWord where
  addr : Nat
  place : WordRef
  value : Word
  whole : Bool
deriving DecidableEq, Repr

/-- The judged words of a run of written words, in address order (R29). -/
def judgedWords (ws : List Window) : Nat → List WriteWord → List JudgedWord
  | _, [] => []
  | addr, w :: rest =>
    match locate ws addr with
    | some place =>
      if w.enables = 0 then judgedWords ws (addr + 1) rest
      else ⟨addr, place, w.value, decide (w.enables = 15#4)⟩ :: judgedWords ws (addr + 1) rest
    | none => judgedWords ws (addr + 1) rest

/-- The new values of the judged words of one record (R29). A word with fewer than four enables is left out:
the owner cannot know its value, so the other words are judged against the record as its copies stand there
(DESIGN CHOICE, log entry 41). -/
def newWords (js : List JudgedWord) (r : Region) (index : Nat) : List (Nat × Word) :=
  (js.filter (fun j => decide (j.place.region = r ∧ j.place.index = index) && j.whole)).map (fun j => (j.place.offset, j.value))

/-- An owner's verdict as its answer: NONE passes, with the event if there is one. -/
def answerOf (reason : Code) (event : Option HostEvent) : Answer :=
  match reason, event with
  | .none, some e => .request e
  | .none, none => .pass
  | r, _ => .refuse r

/-- A PLAN word: the state test, then the range test. -/
def planAnswer (state range : Bool) : Answer :=
  if state = false then .refuse .state else if range then .pass else .refuse .range

/-! ### Directory (R186, R99, R46, R177) -/

/-- The codes of the control word: NONE 0, RESTART 1, SAFE 2 (R186, R190; log entry 21). -/
def State.controlWord (s : State) (value : Word) : Answer :=
  if value = 0 then .pass
  else if value = 1 ∨ value = 2 then
    (if s.dir.restartPending then .refuse .busy else .request (.lifecycle (decide (value = 2))))
  else .refuse .range

def State.heatWord (s : State) (value : Word) : Answer :=
  answerOf (s.steam.heatVerdict value) (if value = 0 then none else some (.heat (decide (value = 1))))

/-- "A code other than CLEAR is refused with RANGE" (R46). -/
def State.faultClearWord (s : State) (value : Word) : Answer :=
  if value = 1 then
    match s.path.fault with
    | none => .refuse .state
    | some f => if f.read then .request .faultClear else .refuse .notSeen
  else .refuse .range

/-- "A distance of 0 passes with no effect" (R177). -/
def State.tailWord (s : State) (value : Word) : Answer :=
  answerOf (s.notices.tailVerdict value.toNat)
    (if value.toNat = s.notices.tail then none else some (.tail value.toNat))

def State.directoryWord (s : State) (offset : Nat) (value : Word) : Answer :=
  if offset = 21 then s.controlWord value
  else if offset = 23 then s.heatWord value
  else if offset = 24 then s.faultClearWord value
  else if offset = 25 then s.tailWord value
  else .refuse .state

/-! ### Beds (R2, R3, R5, R74, R75) -/

/-- Whether a value lies in its plan field's range (section 1.1). -/
def State.bedPlanInRange (s : State) (offset : Nat) (value : Word) : Bool :=
  let n := value.toNat
  if offset = 0 then decide (1 ≤ n ∧ n ≤ 16)
  else if offset = 1 then decide (1 ≤ n ∧ n ≤ 12)
  else if offset ≤ 13 then
    decide (bitsAt value 0 8 < 64 ∧ bitsAt value 0 8 < s.dir.zones ∧ 1 ≤ bitsAt value 8 8 ∧ bitsAt value 8 8 ≤ 15)
  else if offset = 14 then decide (1 ≤ n ∧ n ≤ 400)
  else if offset = 15 then decide (n ≤ 7)
  else decide (1 ≤ n ∧ n ≤ 4)

/-- Whether a bed's request word, "as it would stand after the whole transfer, holds a code other than
NONE" (R2). -/
def State.requestStands (s : State) (b : Fin 24) (new : List (Nat × Word)) : Bool :=
  match wordFor new 17 with
  | some v => decide (v ≠ 0)
  | none => (s.bedUnit b).request.isSome

/-- A PLAN word of a bed record (R2). -/
def State.bedPlanWord (s : State) (b : Fin 24) (new : List (Nat × Word)) (offset : Nat) (value : Word) : Answer :=
  if s.requestStands b new then .refuse .busy
  else
    planAnswer (decide (14 ≤ offset ∨ (s.bedUnit b).state = .empty ∨ (s.bedUnit b).state = .prepared))
      (s.bedPlanInRange offset value)

/-- Whether a bed's active profile is twinned with its pending profile (R74). -/
def BedState.twins : BedState → Bool
  | .curing => false
  | .standing => false
  | _ => true

/-- The pending word of an active profile word (R74). -/
def twinOffset (offset : Nat) : Nat := if offset < 34 then offset + 18 else offset + 20

/-- Whether a START_CURE is in progress on a bed, as the Bed Unit holds it (R74). -/
def State.startsCure (s : State) (b : Fin 24) : Bool :=
  match (s.bedUnit b).request with
  | some r => decide (r.code = .startCure)
  | none => false

/-- An active profile word (R74). -/
def State.activeWord (s : State) (b : Fin 24) (offset : Nat) : Answer :=
  if s.startsCure b then .refuse .busy
  else if (s.cureUnit b).bedState.twins then .twin ⟨.bed, b.val, twinOffset offset⟩
  else .refuse .state

/-- The TAKE word (R75). -/
def State.takeWord (s : State) (b : Fin 24) (value : Word) : Answer :=
  if 1 < value.toNat then .refuse .range
  else if (s.cureUnit b).take.pending then .refuse .busy
  else if value = 0 then .pass
  else if (s.cureUnit b).bedState = .curing then .request (.take b)
  else .refuse .state

def State.bedWord (s : State) (b : Fin 24) (new : List (Nat × Word)) (offset : Nat) (value : Word) : Answer :=
  if offset ≤ 16 then s.bedPlanWord b new offset value
  else if offset = 17 then
    answerOf (s.bedVerdict b value.toNat) ((BedCode.ofNat? value.toNat).map (fun code => .bed b code))
  else if 32 ≤ offset ∧ offset ≤ 49 then s.activeWord b offset
  else if offset = 52 then s.takeWord b value
  else .refuse .state

/-! ### Mixes, pieces and slots (R20, R111, R113, R116) -/

def State.mixWord (s : State) (n : Nat) (new : List (Nat × Word)) : Answer :=
  if 0 < (s.mix n).useCount then .refuse .inUse
  else if ((s.mix n).withWords new).inRange then .pass else .refuse .range

def State.pieceWord (s : State) (n offset : Nat) (value : Word) : Answer :=
  if offset = 9 then
    answerOf (s.pieceVerdict n value.toNat) ((PieceCode.ofNat? value.toNat).map (fun code => .piece n code))
  else .refuse .state

/-- "The maximum height is refused with RANGE outside 1 to 6. A value in range is refused with STATE when
it is below the present stack height or below the peak planned height" (R116). -/
def State.slotWord (s : State) (n offset : Nat) (value : Word) : Answer :=
  match s.slot? n with
  | none => .refuse .state
  | some x =>
    if offset = 0 then planAnswer (decide (x.stack = [] ∧ x.claims = [])) (decide (value.toNat < s.dir.zones))
    else if offset = 1 then
      (if value.toNat < 1 ∨ 6 < value.toNat then .refuse .range
       else if value.toNat < x.stack.length ∨ value.toNat < (s.planned x).peak then .refuse .state
       else .pass)
    else if offset = 2 then (if value.toNat ≤ 1 then .pass else .refuse .range)
    else .refuse .state

/-! ### The roster (R51, R52) -/

/-- A roster entry's loop and wire address "as they would stand after the whole transfer" (R52). -/
def wireOf (js : List JudgedWord) (n : Nat) (e : ProbeEntry) : Nat × Nat :=
  let new := newWords js .roster n
  (((wordFor new 0).map (·.toNat)).getD e.loop, ((wordFor new 1).map (·.toNat)).getD e.address)

/-- The entries other than `n` that count as not OFFLINE for the enabling of entry `n`, by loop and
address: those not OFFLINE, and those "enabled earlier in the same transfer" (R52). -/
def State.enabledWires (s : State) (js : List JudgedWord) (n : Nat) : List (Nat × Nat) :=
  ((indexed 0 s.roster).filter (fun x =>
    decide (x.1 ≠ n) &&
    (decide (x.2.state ≠ .offline) ||
      (decide (x.1 < n) && decide (wordFor (newWords js .roster x.1) 3 = some 1))))).map (fun x => wireOf js x.1 x.2)

/-- The enable word (R52). -/
def State.enableWord (s : State) (js : List JudgedWord) (n : Nat) (e : ProbeEntry) (value : Word) : Answer :=
  if 1 < value.toNat then .refuse .range
  else
    let on := decide (value = 1)
    match e.state, on with
    | .offline, false => .pass
    | .offline, true =>
      let wire := wireOf js n e
      let wires := s.enabledWires js n
      if wire ∈ wires then .refuse .inUse
      else if 16 ≤ (wires.filter (fun w => decide (w.1 = wire.1))).length then .refuse .range
      else .request (.enable n true)
    | .barred, true => .pass
    | .barred, false => .refuse .state
    | _, true => .pass
    | _, false => .request (.enable n false)

/-- "The state test is made first" (R51). -/
def State.rosterWord (s : State) (js : List JudgedWord) (n offset : Nat) (value : Word) : Answer :=
  match s.roster[n]? with
  | none => .refuse .state
  | some e =>
    if offset = 0 then planAnswer (decide (e.state = .offline)) (decide (value.toNat ≤ 3))
    else if offset = 1 then planAnswer (decide (e.state = .offline)) (decide (1 ≤ value.toNat ∧ value.toNat ≤ 30))
    else if offset = 2 then planAnswer (decide (e.state = .offline ∨ e.state = .lost)) (decide (value.toNat ≤ 25))
    else if offset = 3 then s.enableWord js n e value
    else .refuse .state

/-! ### Cranes, the move ring and the move table (R132, R147, R152, R169) -/

def State.craneWord (s : State) (c : Fin 2) (offset : Nat) (value : Word) : Answer :=
  if offset = 3 then planAnswer (!(s.mon c).armed) (decide (5 ≤ value.toNat ∧ value.toNat ≤ 100))
  else if offset = 4 then answerOf (s.armVerdict c value.toNat) (if value = 0 then none else some (.arm c))
  else .refuse .state

/-- Whether an intake is in progress on a ring entry (R152). -/
def State.intakeOn (s : State) (entry : Nat) : Bool :=
  match s.moves.intake with
  | some k => decide (k.entry = entry)
  | none => false

def State.ringWord (s : State) (entry offset : Nat) (value : Word) : Answer :=
  if offset = 7 then answerOf (s.postVerdict entry value.toNat) (if value = 0 then none else some (.intake entry))
  else if s.intakeOn entry then .refuse .busy else .pass

def State.tableWord (s : State) (i : Fin 16) (offset : Nat) (value : Word) : Answer :=
  if offset = 13 then
    answerOf (s.controlVerdict i value.toNat) ((CtrlCode.ofNat? value.toNat).map (fun code => .control i code))
  else .refuse .state

/-! ### One word -/

/-- Whether a word is of class OPEN (R29, R75, R97, R111, R169; section 10.5 for the unused words). -/
def State.isOpenWord (s : State) (w : WordRef) : Bool :=
  match w.region with
  | .directory => decide (57 ≤ w.offset)
  | .bed => decide (w.offset = 31 ∨ w.offset = 50 ∨ w.offset = 51 ∨ (54 ≤ w.offset ∧ w.offset ≤ 69) ∨ 74 ≤ w.offset)
  | .mix => decide (5 ≤ w.offset)
  | .piece => decide (w.offset = 8 ∨ w.offset = 11)
  | .slot => decide (w.offset = 19)
  | .roster => decide (14 ≤ w.offset)
  | .crane => decide (18 ≤ w.offset)
  | .gateA => decide (s.steam.active ≠ .a)
  | .gateB => decide (s.steam.active ≠ .b)
  | .moveRing => false
  | .moveTable => decide (w.offset = 14)
  | .noticeRing => false

/-- An acknowledge word (R180), or another word of an alarm block, which is OWNED (section 9.4). -/
def State.alarmWord (s : State) (r : AlarmRef) (offset : Nat) (value : Word) : Answer :=
  if offset = 3 then answerOf (ackVerdict (s.alarm r) value) (if value = 0 then none else some (.ack r))
  else .refuse .state

/-- The owner's answer for a word that is not OPEN and has all four enables (R30). The words of a gate
list's active copy (R97) and of the notice ring (log entry 10) are OWNED. -/
def State.ownerAnswer (s : State) (js : List JudgedWord) (j : JudgedWord) : Answer :=
  let w := j.place
  match alarmAt w with
  | some (r, k) => s.alarmWord r k j.value
  | none =>
    match w.region with
    | .directory => s.directoryWord w.offset j.value
    | .bed =>
      match fin? 24 w.index with
      | some b => s.bedWord b (newWords js .bed w.index) w.offset j.value
      | none => .refuse .state
    | .mix => s.mixWord (w.index + 1) (newWords js .mix w.index)
    | .piece => s.pieceWord (w.index + 1) w.offset j.value
    | .slot => s.slotWord (w.index + 1) w.offset j.value
    | .roster => s.rosterWord js w.index w.offset j.value
    | .crane =>
      match fin? 2 w.index with
      | some c => s.craneWord c w.offset j.value
      | none => .refuse .state
    | .gateA => .refuse .state
    | .gateB => .refuse .state
    | .moveRing => s.ringWord w.index w.offset j.value
    | .moveTable =>
      match fin? 16 w.index with
      | some i => s.tableWord i w.offset j.value
      | none => .refuse .state
    | .noticeRing => .refuse .state

/-- The answer for one judged word: OPEN passes; "A judged word of any class other than OPEN that has
fewer than all four byte enables set is refused with PARTIAL" (R29). -/
def State.judgeWord (s : State) (js : List JudgedWord) (j : JudgedWord) : Answer :=
  if s.isOpenWord j.place then .pass
  else if j.whole then s.ownerAnswer js j
  else .refuse .partialWord

/-! ### The whole transfer -/

/-- What judging a WRITE gives: the first refused word with its reason, or the twin words and the events
its words carry (R31). -/
inductive Judgement where
  | refused (addr : Nat) (reason : Code)
  | passed (twins : List (WordRef × Word)) (events : List HostEvent)
deriving DecidableEq, Repr

/-- Gather the answers in address order; the first refusal decides (R31). -/
def State.gather (s : State) (js : List JudgedWord) : List JudgedWord → Judgement
  | [] => .passed [] []
  | j :: rest =>
    match s.judgeWord js j with
    | .refuse reason => .refused j.addr reason
    | .pass => s.gather js rest
    | .twin w =>
      match s.gather js rest with
      | .passed twins events => .passed ((w, j.value) :: twins) events
      | refused => refused
    | .request e =>
      match s.gather js rest with
      | .passed twins events => .passed twins (e :: events)
      | refused => refused

/-- The judgement of a WRITE during RUNNING (R29 to R31). -/
def State.judge (s : State) (addr : Nat) (words : List WriteWord) : Judgement :=
  let js := judgedWords s.path.windows addr words
  s.gather js js

end Sys2Proof.Machine
end

