-- ==== Sys2Proof/Machine/HostPath.lean ====
section
/-! DEFINITION. The course of a host transfer (R24, R27, R33 to R36, R46 to R48) and the answers of the
memory port (R25, R37, R41, R43, R44). -/

namespace Sys2Proof.Machine

def State.withHost (s : State) (h : HostPort) : State := { s with host := h }

/-- Change the transfer in the upstream port. -/
def State.withUp (s : State) (u : UpTransfer) : State := s.withHost { s.host with up := some u }

/-! ### Arrival and response (R24) -/

/-- A transfer enters the free port: the two cases settled at once, else it waits (R24, R27). A WRITE that
meets both cases, above the last word and with no byte enabled, is refused with RANGE: R24 gives no order,
and the model takes its first case first (DESIGN CHOICE, log entry 37). -/
def enterPort (t : HostTransfer) (s : State) : State :=
  let answered (r : Response) (s : State) : State := s.withHost { s.host with replies := s.host.replies ++ [⟨r, []⟩] }
  if Config.memoryWords < t.addr + transferLength t then
    match t.op with
    | .read _ => answered .dataError s
    | .write _ => answered .refused (recordRefusal t.addr .range s)
  else
    match t.op with
    | .read _ => s.withUp ⟨t, .waiting, false, [], [], false, false⟩
    | .write ws =>
      if ws.all (fun w => decide (w.enables = 0)) then answered .done s
      else s.withUp ⟨t, .waiting, false, [], [], false, false⟩

/-- Let in the transfers of the host in order, while the port is free (R24). -/
def letIn : Nat → State → State
  | 0, s => s
  | fuel + 1, s =>
    match s.host.up, s.host.backlog with
    | none, t :: rest => letIn fuel (enterPort t (s.withHost { s.host with backlog := rest }))
    | _, _ => s

/-- A host transfer arrives at the upstream port, which "accepts the next only after it has given the
response to the one before" (R24). A transfer that finds the port free begins a new list of responses. -/
def arrive (t : HostTransfer) (s : State) : State :=
  letIn (s.host.backlog.length + 1)
    (s.withHost { s.host with backlog := s.host.backlog ++ [t],
                              replies := if s.host.up.isNone then [] else s.host.replies })

/-- Give the response and let in the next transfer (R24); those that the port settles at once are answered
behind it. -/
def respond (r : Response) (data : List Word) (s : State) : State :=
  letIn s.host.backlog.length (s.withHost { s.host with up := none, replies := [⟨r, data⟩] })

/-- A write refused whole (R31, R32). -/
def refuseTransfer (addr : Nat) (reason : Code) (s : State) : State :=
  respond .refused [] (recordRefusal addr reason s)

/-! ### Taking (R27, R28, R33, R36, R47, R48) -/

/-- The transfer is taken and passes to the arbiter. -/
def passTransfer (u : UpTransfer) (s : State) : State := s.withUp { u with stage := .taken }

/-- A slot that a host write held goes back (R33, R38). -/
def freeReserved (s : State) : State :=
  match s.host.up with
  | some u => if u.reserved then handSlot (s.withUp { u with reserved := false }) else s
  | none => s

/-- The word a LOADING refusal names: the first word judged, or the first that touches a window (R47). -/
def State.loadingAddr (s : State) (addr : Nat) (ws : List WriteWord) : Nat :=
  match judgedWords s.path.windows addr ws with
  | j :: _ => j.addr
  | [] => ((countFrom addr ws.length).find? (fun a => (locate s.path.windows a).isSome)).getD addr

/-- A WRITE taken during LOADING (R47). -/
def takeLoading (u : UpTransfer) (ws : List WriteWord) (s : State) : State :=
  if s.path.known = false then refuseTransfer u.xfer.addr .loading s
  else if transferPlaces u.xfer s.path.windows = [] then passTransfer u s
  else refuseTransfer (s.loadingAddr u.xfer.addr ws) .loading s

/-- The events of a WRITE taken in SAFE: RESTART in the control word and CLEAR in the memory fault clear
word keep their meaning (R46, R48). -/
def safeEvents (js : List JudgedWord) : List HostEvent :=
  js.filterMap (fun j =>
    if j.place.region = .directory ∧ j.whole then
      (if j.place.offset = 21 ∧ j.value = 1 then some (.lifecycle false)
       else if j.place.offset = 24 ∧ j.value = 1 then some .faultClear
       else none)
    else none)

/-- A WRITE taken during SAFE: every judged word passes as OPEN (R48). -/
def takeSafe (u : UpTransfer) (ws : List WriteWord) (s : State) : State :=
  freeReserved (passTransfer { u with judged := false, twins := [], events := safeEvents (judgedWords s.path.windows u.xfer.addr ws) }
    (s.leaveSlotWait .hostWrite))

/-- A WRITE judged during RUNNING (R29 to R33). One with a twin takes a commit group slot, or waits for it. -/
def takeRunning (u : UpTransfer) (ws : List WriteWord) (s : State) : State :=
  match s.judge u.xfer.addr ws with
  | .refused addr reason => refuseTransfer addr reason ((freeReserved s).leaveSlotWait .hostWrite)
  | .passed twins events =>
    let v := { u with judged := true, twins := twins, events := events }
    if twins = [] then freeReserved (passTransfer v (s.leaveSlotWait .hostWrite))
    else if u.reserved then passTransfer v s
    else if s.slotFor .hostWrite then passTransfer { v with reserved := true } (s.leaveSlotWait .hostWrite)
    else s.joinSlotWait .hostWrite

/-- Take a waiting WRITE by the lifecycle in force (R29). -/
def takeWrite (u : UpTransfer) (ws : List WriteWord) (s : State) : State :=
  match s.dir.lifecycle with
  | .loading => takeLoading u ws s
  | .running => takeRunning u ws s
  | .safe => takeSafe u ws s

/-- Examine the waiting transfer, and take it when nothing keeps it waiting (R27, R28, R36). A WRITE on the
slot waiting list waits until a slot has been handed to it (R33, R38). -/
def takeTransfer (s : State) : State :=
  match s.host.up with
  | none => s
  | some u =>
    if s.waitsFree u then
      match u.xfer.op with
      | .read _ => passTransfer { u with takenLoading := decide (s.dir.lifecycle = .loading) } s
      | .write ws => takeWrite u ws s
    else s

/-! ### The owners' copies after a write (R2, R20, R51, R111, R116, R132) -/

/-- A bed's mix or piece count, valve rating or priority (R2). -/
def bedCopy (b : Fin 24) (offset : Nat) (value : Word) (s : State) : State :=
  let u := s.bedUnit b
  let n := value.toNat
  if offset = 0 then
    let set := s.setBedUnit b { u with mix := n }
    if u.state = .prepared ∧ u.mix ≠ n then changeUse n 1 (changeUse u.mix (-1) set) else set
  else if offset = 1 then s.setBedUnit b { u with pieceCount := n }
  else if offset = 14 then s.setSteamBed b { s.steamBed b with rating := n }
  else if offset = 15 then s.setSteamBed b { s.steamBed b with priority := n }
  else s

/-- A probe's loop, wire address or assignment (R51). -/
def rosterCopy (n offset : Nat) (value : Word) (s : State) : State :=
  match s.roster[n]? with
  | none => s
  | some e =>
    let put (e : ProbeEntry) : State := { s with roster := s.roster.set n e }
    if offset = 0 then put { e with loop := value.toNat }
    else if offset = 1 then put { e with address := value.toNat }
    else if offset = 2 then put { e with assignment := (Assignment.ofNat? value.toNat).getD e.assignment }
    else s

/-- Whether a piece has a hold copy: a FREE piece has none (R115), nor has one being freed or reserved. -/
def PieceState.holds : PieceState → Bool
  | .free => false
  | .freeing => false
  | .reserved => false
  | _ => true

/-- The hold reason, as it stands in memory after the write (R111). -/
def holdCopy (n : Nat) (s : State) : State :=
  match s.piece? n with
  | some p => if p.state.holds then s.setPiece n { p with hold := s.recordWord .piece (n - 1) 8 } else s
  | none => s

/-- A slot's zone, maximum height or open word; OPEN is 0 (R116, R190). -/
def slotCopy (n offset : Nat) (value : Word) (s : State) : State :=
  match s.slot? n with
  | none => s
  | some x =>
    if offset = 0 then s.setSlot n { x with zone := value.toNat }
    else if offset = 1 then s.setSlot n { x with maxHeight := value.toNat }
    else if offset = 2 then s.setSlot n { x with isOpen := decide (value = 0) }
    else s

/-- The control word and the new destination of a mirror entry; the new destination, which is OPEN, as it
stands in memory after the write (R151, R169). -/
def moveCopy (i : Fin 16) (offset : Nat) (value : Word) (s : State) : State :=
  if offset = 13 then s.putMove i { s.move i with control := CtrlCode.ofNat? value.toNat }
  else if offset = 14 then s.putMove i { s.move i with newDest := (s.recordWord .moveTable i.val 14).toNat }
  else s

/-- Take one written word into its owner's copy. R20 has the entry of a mix that is named not change, and has a write that
passes and is done at memory set the copy. A mix write judged while the use count was 0 can be done after the PREPARE group
of a bed has named the mix: memory and the copy then take the new values (DESIGN CHOICE, log entry 77). -/
def updateCopy (s : State) (j : JudgedWord) : State :=
  let w := j.place
  match w.region with
  | .bed => match fin? 24 w.index with | some b => bedCopy b w.offset j.value s | none => s
  | .mix => if w.offset ≤ 4 then s.setMix (w.index + 1) ((s.mix (w.index + 1)).withWords [(w.offset, j.value)]) else s
  | .roster => rosterCopy w.index w.offset j.value s
  | .piece => if w.offset = 8 then holdCopy (w.index + 1) s else s
  | .slot => slotCopy (w.index + 1) w.offset j.value s
  | .crane =>
    match fin? 2 w.index with
    | some c => if w.offset = 3 then setMon c { s.mon c with deadTime := j.value.toNat } s else s
    | none => s
  | .moveTable => match fin? 16 w.index with | some i => moveCopy i w.offset j.value s | none => s
  | _ => s

/-- Take a judged write that memory has done into the owners' copies. In SAFE they stay as they stood
(R23, R72, R130, R150). -/
def updateCopies (u : UpTransfer) (ws : List WriteWord) (s : State) : State :=
  if u.judged ∧ s.running then (judgedWords s.path.windows u.xfer.addr ws).foldl updateCopy s else s

/-! ### The finishing work (R33, R34, R36, R46) -/

/-- The transfer's events are handed and it is answered DONE (R34). -/
def finishWrite (s : State) : State :=
  match s.host.up with
  | some u => respond .done [] (handEvents u.events s)
  | none => s

/-- The spans of a twin copy: for each record the twin words of it, each with the value written to the
word it twins (R33). -/
def twinSpans (twins : List (WordRef × Word)) : List Span :=
  let records := (twins.map (fun t => (⟨t.1.region, t.1.index⟩ : RecRef))).eraseDups
  records.map (fun x =>
    recordSpan x.region x.index
      ((twins.filter (fun t => decide (t.1.region = x.region ∧ t.1.index = x.index))).map (fun t => (t.1.offset, t.2))))

/-- A host WRITE has been done at memory (R33, R34). No twin copy is made in SAFE (R48). While a restart is
pending the twin copy is made and issued as in RUNNING: R49 admits no new commit group but finishes a taken
transfer, and the model lets the transfer finish whole (DESIGN CHOICE, log entry 38). -/
def writeDone (u : UpTransfer) (ws : List WriteWord) (s : State) : State :=
  let stored := updateCopies u ws { s with mem := setHostWords s.mem u.xfer.addr ws }
  if u.twins = [] ∨ stored.safe then finishWrite (freeReserved stored)
  else
    enterGroup true ⟨.twin, twinSpans u.twins⟩ (stored.withUp { u with stage := .finishing, reserved := false })

/-- The fault is marked as read when a READ has covered its kind word (R36, R46). -/
def markFault (places : List WordRef) (s : State) : State :=
  match s.path.fault with
  | some f =>
    if places.any (fun w => decide (w.region = .directory ∧ w.offset = 38)) ∧ f.read = false then
      setFault (some { f with read := true }) s
    else s
  | none => s

/-- The read events of a READ, each with the value the host was given (R36, R180). -/
def readEvents (addr : Nat) (data : List Word) (s : State) : State :=
  (indexed addr data).foldl (fun s x =>
    match locate s.path.windows x.1 with
    | some w =>
      match alarmAt w with
      | some (r, 0) => readEvent r x.2 s
      | _ => s
    | none => s) s

/-- A host READ has been done at memory (R36). "During LOADING a READ hands no read events": R36 does not say which
moment counts for a READ taken during LOADING and answered after it. The model goes by the lifecycle in which the READ
was taken, since the path applies a new state "to transfers taken after that event" (section 2.10; DEDUCED, log entry 57). -/
def readDone (u : UpTransfer) (n : Nat) (s : State) : State :=
  let data := wordsAt s.mem u.xfer.addr n
  let marked := markFault (transferPlaces u.xfer s.path.windows) s
  respond .done data (if u.takenLoading then marked else readEvents u.xfer.addr data marked)

/-- A host transfer is answered DATA_ERROR (R35, R36, R43). Whether a WRITE reached the cells is the
command's to say (log entry 9). -/
def hostFailed (u : UpTransfer) (kind : FaultCode) (stored : Bool) (s : State) : State :=
  let offered := offerFault u.xfer.addr kind .host s
  match u.xfer.op with
  | .read _ => respond .dataError [] offered
  | .write ws =>
    let written : State := if stored then { offered with mem := setHostWords offered.mem u.xfer.addr ws } else offered
    respond .dataError [] (failEvents u.events (freeReserved written))

/-! ### The part's own bursts (R37, R41, R44) -/

/-- An item's last burst has been answered DONE (R37, R39, R41). -/
def itemDone (c : Current) (s : State) : State :=
  let p := { s.path with current := none }
  match c.item with
  | .group g => s.withPath { p with answered := p.answered ++ [g] }
  | .refresh _ => s.withPath p
  | .read rd => s.withPath { p with returned := p.returned ++ [⟨rd, some c.got, 0⟩] }

/-- An own burst is answered DONE (R37). -/
def burstDone (b : Burst) (c : Current) (s : State) : State :=
  let freed := s.withPath { s.path with port := .free, portMs := 0 }
  let carried :=
    match b with
    | .write _ _ ws => ({ freed with mem := setWords s.mem (s.burstAddr b) ws }, c)
    | .read _ _ n => (freed, { c with got := c.got ++ wordsAt s.mem (s.burstAddr b) n })
  if c.rest = [] then itemDone carried.2 carried.1
  else carried.1.withPath { carried.1.path with current := some carried.2 }

/-- Whether a twin copy group is still in flight. -/
def State.twinInFlight (s : State) : Bool :=
  let twin (g : Group) : Bool := decide (g.completion = .twin)
  let item (i : OwnItem) : Bool := match i with | .group g => twin g | _ => false
  s.path.queue.any item || (match s.path.current with | some c => item c.item | none => false) || s.path.answered.any twin

/-- After an own write has failed: a host WRITE on the slot waiting list is taken at once under the rules
of SAFE (R44), and one whose twin copy group is gone is answered DONE (R33). -/
def settleHost (waited : Bool) (s : State) : State :=
  match s.host.up with
  | none => s
  | some u =>
    match u.stage, u.xfer.op with
    | .waiting, .write ws => if waited then takeSafe u ws s else s
    | .finishing, _ => if s.twinInFlight then s else finishWrite s
    | _, _ => s

/-- The index that names a record in a load result: a gate list copy is named by its letter (R190). -/
def Region.recordIndex (r : Region) (word : Nat) : Nat :=
  match r with
  | .gateA => 0
  | .gateB => 1
  | r => word / r.recLen

/-- An own write burst is answered DATA_ERROR (R44; during LOADING with the load result of R185). -/
def ownWriteFailed (r : Region) (first : Nat) (s : State) : State :=
  let waited := decide (Party.hostWrite ∈ s.path.slotWait)
  let dropped := s.withPath { s.path with port := .free, portMs := 0, current := none }
  let entered :=
    if s.dir.lifecycle = .loading then failLoad .memory .memory r.code (r.recordIndex first) dropped
    else enterSafe .memory dropped
  settleHost waited entered

/-- An own read burst is answered DATA_ERROR: the read ends at once (R41). -/
def ownReadFailed (rd : OwnRead) (first : Nat) (s : State) : State :=
  s.withPath { s.path with port := .free, portMs := 0, current := none, returned := s.path.returned ++ [⟨rd, none, first⟩] }

/-- An own burst is answered DATA_ERROR (R41, R43, R44). -/
def burstFailed (b : Burst) (c : Current) (kind : FaultCode) (stored : Bool) (s : State) : State :=
  let offered := offerFault (s.burstAddr b) kind .own s
  match b, c.item with
  | .write r first ws, _ =>
    ownWriteFailed r first (if stored then { offered with mem := setWords s.mem (s.burstAddr b) ws } else offered)
  | .read _ first _, .read rd => ownReadFailed rd first offered
  | .read _ _ _, _ => offered.withPath { offered.path with port := .free, portMs := 0, current := none }

/-! ### What the port answers (R25) -/

/-- The transfer issued at memory is answered DONE. With none issued there is nothing to answer, and the
answer to a burst of a read that SAFE has dropped frees the port alone (R95, R109). -/
def portDone (s : State) : State :=
  match s.path.port with
  | .free => s
  | .host =>
    let freed := s.withPath { s.path with port := .free, portMs := 0 }
    match s.host.up with
    | some u =>
      match u.xfer.op with
      | .read n => readDone u n freed
      | .write ws => writeDone u ws freed
    | none => freed
  | .own b =>
    match s.path.current with
    | some c => burstDone b c s
    | none => s.withPath { s.path with port := .free, portMs := 0 }

/-- The transfer issued at memory ends as DATA_ERROR of a kind (R25, R43). -/
def portFailed (kind : FaultCode) (stored : Bool) (s : State) : State :=
  match s.path.port with
  | .free => s
  | .host =>
    let freed := s.withPath { s.path with port := .free, portMs := 0 }
    match s.host.up with
    | some u => hostFailed u kind stored freed
    | none => freed
  | .own b =>
    match s.path.current with
    | some c => burstFailed b c kind stored s
    | none =>
      let offered := offerFault (s.burstAddr b) kind .own s
      offered.withPath { offered.path with port := .free, portMs := 0 }

/-! ### Completions and returned reads (R39, R41) -/

/-- A group whose last burst is answered completes (R39); a twin copy's host transfer is finished (R33). -/
def groupComplete (s : State) : State :=
  match s.path.answered with
  | [] => s
  | g :: rest =>
    let left := s.withPath { s.path with answered := rest }
    let done := groupDone g.completion left
    handSlot (if g.completion = .twin then finishWrite done else done)

end Sys2Proof.Machine
end

