-- ==== Sys2Proof/Machine/LoadChecks.lean ====
section
/-! DEFINITION. The checks of loading: the directory (R184) and each block's records (R22, R70, R93, R108,
R129, R149, R172, R181), as they come back from the load reads. -/

namespace Sys2Proof.Machine

/-- What a check answers: nothing at fault, or the region code and the index to name. -/
abbrev Fault? := Option (Nat × Nat)

/-- The first check of a list that fails. -/
def firstFault {α : Type} (f : α → Fault?) (xs : List α) : Fault? := xs.findSome? f

/-- A check of record `i` of a region: it fails unless all its tests pass. -/
def recordFault (r : Region) (i : Nat) (tests : List Bool) : Fault? :=
  if tests.all id then none else some (r.code, i)

/-! ### The directory (R184) -/

/-- A region as the directory names it: the offset of its base, its base, and its record count. -/
structure Named where
  region : Region
  offset : Nat
  base : Nat
  count : Nat
deriving DecidableEq, Repr

def Named.size (n : Named) : Nat := n.region.recLen * n.count

/-- The regions the directory names, in the order of their base words (R190). -/
def namedRegions (d : List Word) : List Named :=
  let w (o : Nat) : Nat := (d.getD o 0).toNat
  [⟨.crane, 5, w 5, 2⟩, ⟨.bed, 6, w 6, 24⟩, ⟨.mix, 7, w 7, 16⟩, ⟨.piece, 8, w 8, w 9⟩, ⟨.slot, 10, w 10, w 11⟩,
   ⟨.roster, 12, w 12, w 13⟩, ⟨.gateA, 14, w 14, 1⟩, ⟨.gateB, 15, w 15, 1⟩, ⟨.moveRing, 16, w 16, w 17⟩,
   ⟨.moveTable, 18, w 18, 16⟩, ⟨.noticeRing, 19, w 19, w 20⟩]

/-- The range of a count or figure word of the directory (R184); other words have none. -/
def figureInRange (d : List Word) (offset : Nat) : Bool :=
  let w := (d.getD offset 0).toNat
  if offset = 2 then decide (8 ≤ w ∧ w ≤ 64)
  else if offset = 3 then decide (w < (d.getD 2 0).toNat)
  else if offset = 4 then decide (1 ≤ w ∧ w ≤ 4000)
  else if offset = 9 then decide (32 ≤ w ∧ w ≤ 256)
  else if offset = 11 then decide (1 ≤ w ∧ w ≤ 128)
  else if offset = 13 then decide (w ≤ 64)
  else if offset = 17 then decide (w ∈ [8, 16, 32, 64])
  else if offset = 20 then decide (w ∈ [16, 32, 64, 128, 256])
  else true

/-- Whether the last word of a region, at its base plus its size less 1, is a word of memory (R184). The size is taken
from the count as it stands, be the count in its own range or not (log entry 13). -/
def Named.fits (n : Named) : Bool := decide (n.base + n.size ≤ Config.memoryWords)

/-- Whether the word at an offset passes the RANGE check: a figure or count by its range, a base by the end of its region. -/
def offsetInRange (d : List Word) (offset : Nat) : Bool :=
  figureInRange d offset && ((namedRegions d).filter (fun n => decide (n.offset = offset))).all Named.fits

/-- Whether two runs of words share a word. -/
def shareWord (a n b m : Nat) : Bool := decide (a < b + m ∧ b < a + n ∧ 0 < n ∧ 0 < m)

/-- The base offset of the first region that shares a word with the directory or with a region before it
(R184): "the offset of the base of the region that stands later in the directory". -/
def overlapAt (base : Nat) : List Named → List Named → Option Nat
  | _, [] => none
  | before, n :: rest =>
    if shareWord n.base n.size base 64 || before.any (fun m => shareWord n.base n.size m.base m.size) then some n.offset
    else overlapAt base (before ++ [n]) rest

/-- The checks of the directory, in the order of R184: a result with the index of the first word at fault. -/
def directoryFault (base : Nat) (d : List Word) : Option (Code × Nat) :=
  if (d.getD 0 0).toNat ≠ Config.formatCode then some (.noDirectory, 0)
  else if (d.getD 1 0).toNat ≠ Config.formatRevision then some (.badRevision, 1)
  else
    match (countFrom 2 19).find? (fun o => !(offsetInRange d o)) with
    | some o => some (.range, o)
    | none => (overlapAt base [] (namedRegions d)).map (fun o => (.overlap, o))

/-! ### Records as the load reads found them -/

/-- The words a load read of a region returned. -/
def State.loaded (s : State) (r : Region) : List Word := (s.load.data.lookup r).getD []

def State.loadRecord (s : State) (r : Region) (i : Nat) : List Word :=
  ((s.loaded r).drop (i * r.recLen)).take r.recLen

/-- A word of a loaded record. -/
def State.loadWord (s : State) (r : Region) (i o : Nat) : Word := (s.loadRecord r i).getD o 0

def State.loadNat (s : State) (r : Region) (i o : Nat) : Nat := (s.loadWord r i o).toNat

/-- The state of piece record `n`, counted from 1. -/
def State.pieceCode (s : State) (n : Nat) : Nat := s.loadNat .piece (n - 1) 0

/-- The numbers of the piece records. -/
def State.pieceNumbers (s : State) : List Nat := countFrom 1 s.dir.pieceCap

/-- The IN_BED pieces of a bed, in number order. -/
def State.loadedInBed (s : State) (b : Fin 24) : List Nat :=
  s.pieceNumbers.filter (fun n =>
    decide (s.pieceCode n = PieceState.inBed.toNat ∧ bitsAt (s.loadWord .piece (n - 1) 1) 0 8 = b.val + 1))

def State.positionOf (s : State) (n : Nat) : Nat := bitsAt (s.loadWord .piece (n - 1) 1) 8 8

def State.pieceMix (s : State) (n : Nat) : Nat := bitsAt (s.loadWord .piece (n - 1) 2) 8 8

/-- Whether no two of a list are equal. -/
def distinct : List Nat → Bool
  | [] => true
  | x :: xs => !(xs.contains x) && distinct xs

/-! ### Bed Unit (R22) -/

/-- The check of one mix record (R22). A failure names the record as every region's does, counted from 0: mix m lies at
record m−1, and R22 does not say whether "the entry number" of mix 1 is 0 or 1 (DESIGN CHOICE, log entry 70). -/
def State.mixFault (s : State) (i : Nat) : Fault? := recordFault .mix i [(mixOf (s.loadRecord .mix i) 0).inRange]

/-- The checks of one bed record, in the order of R22. -/
def State.bedFault (s : State) (b : Fin 24) : Fault? :=
  let w (o : Nat) : Word := s.loadWord .bed b.val o
  let pieces := s.loadedInBed b
  let state := (w 18).toNat
  recordFault .bed b.val
    [(countFrom 0 17).all (fun o => s.bedPlanInRange o (w o)) && decide ((w 17).toNat ≤ 9),
     decide (state ≤ 6),
     decide ((w 28).toNat = pieces.length),
     distinct (pieces.map s.positionOf) && pieces.all (fun n => decide (s.positionOf n ≤ (w 1).toNat)),
     decide (2 ≤ state ∨ pieces = []),
     decide (state ≠ BedState.detensioned.toNat ∨ (w 28).toNat ≠ 0),
     pieces.all (fun n => decide (s.pieceMix n = (w 0).toNat))]

def State.bedUnitFault (s : State) : Fault? :=
  (firstFault s.mixFault (countFrom 0 16)).or (firstFault s.bedFault (List.finRange 24))

/-! ### Curing Controller (R93) -/

/-- The checks of one bed in CURING. -/
def State.cureFault (s : State) (b : Fin 24) : Fault? :=
  if (s.bedUnit b).state ≠ .curing then none
  else
    let record := s.loadRecord .bed b.val
    let w (o : Nat) : Word := record.getD o 0
    let p := activeProfile record
    let segment := bitsAt (w 20) 0 8
    let hold := ((p.segments[segment - 1]?).getD ⟨0, 0, 0, 0⟩).hold
    recordFault .bed b.val
      [decide (profileTest p = .none),
       decide ((w 19).toNat ≤ 3),
       decide (1 ≤ segment ∧ segment ≤ p.count ∧ bitsAt (w 20) 8 8 ≤ 1),
       decide (-400 ≤ (w 21).toInt ∧ (w 21).toInt ≤ 700),
       decide ((w 22).toNat < hold * 60 + 10)]

/-! ### Probe Loop Controller (R70) -/

/-- The checks of one roster entry. -/
def State.rosterFault (s : State) (i : Nat) : Fault? :=
  let w (j o : Nat) : Nat := s.loadNat .roster j o
  let on := decide (w i 3 = 1)
  let before := (countFrom 0 i).filter (fun j => decide (w j 3 = 1 ∧ w j 0 = w i 0))
  recordFault .roster i
    [decide (w i 0 ≤ 3 ∧ 1 ≤ w i 1 ∧ w i 1 ≤ 30 ∧ w i 2 ≤ 25 ∧ w i 3 ≤ 1),
     decide (w i 4 ≤ 4),
     on == decide (w i 4 ≠ ProbeState.offline.toNat),
     !(on && before.any (fun j => decide (w j 1 = w i 1))),
     !(on && decide (16 ≤ before.length)),
     readingInRange (s.loadWord .roster i 6).toInt && readingInRange (s.loadWord .roster i 7).toInt]

/-! ### Stock Unit (R129) -/

/-- The checks of piece record `n`. -/
def State.pieceFault (s : State) (n : Nat) : Fault? :=
  let w (o : Nat) : Word := s.loadWord .piece (n - 1) o
  let bed := bitsAt (w 1) 0 8
  let len := bitsAt (w 2) 0 8
  let slot := (w 6).toNat
  let claim := (w 7).toNat
  let state := PieceState.ofNat? (w 0).toNat
  let isState (x : PieceState) : Bool := decide (state = some x)
  recordFault .piece (n - 1)
    [state.isSome,
     isState .free ||
       decide (1 ≤ bed ∧ bed ≤ 24 ∧ 1 ≤ s.positionOf n ∧ s.positionOf n ≤ 12 ∧ 1 ≤ len ∧ len ≤ 15 ∧
         1 ≤ s.pieceMix n ∧ s.pieceMix n ≤ 16 ∧ (w 5).toNat < s.dir.zones),
     (if isState .inStock then decide (1 ≤ slot ∧ slot ≤ s.dir.slotCount) else decide (slot = 0)) &&
       (if isState .free || isState .dispatched then decide (claim = 0)
        else if isState .onHook then decide (claim ≠ 0) else true)]

/-- A slot record's stack, bottom first. -/
def State.loadedStack (s : State) (i : Nat) : List Nat :=
  (countFrom 4 (min (s.loadNat .slot i 3) 6)).map (s.loadNat .slot i)

/-- A slot record's claims, head first. -/
def State.loadedClaims (s : State) (i : Nat) : List Claim :=
  (countFrom 11 (min (s.loadNat .slot i 10) 8)).map (fun o => claimOf (s.loadWord .slot i o))

def State.loadedLength (s : State) (n : Nat) : Nat := bitsAt (s.loadWord .piece (n - 1) 2) 0 8

/-- Whether lengths do not grow from the bottom of a stack up (R117). -/
def neverLonger : List Nat → Bool
  | a :: b :: rest => decide (b ≤ a) && neverLonger (b :: rest)
  | _ => true

/-- Whether a loaded claim is a loaded one (R119). -/
def State.claimOnHook (s : State) (c : Claim) : Bool :=
  decide (c.op = .place ∧ s.pieceCode c.piece = PieceState.onHook.toNat)

/-- Whether a list's loaded claims stand ahead of all others. -/
def loadedFirst (loaded : Claim → Bool) (cs : List Claim) : Bool :=
  (cs.dropWhile loaded).all (fun c => !(loaded c))

/-- The checks of slot record `i`, counted from 0. -/
def State.slotFault (s : State) (i : Nat) : Fault? :=
  let w (o : Nat) : Nat := s.loadNat .slot i o
  let stack := s.loadedStack i
  let claims := s.loadedClaims i
  let known (n : Nat) : Bool := decide (1 ≤ n ∧ n ≤ s.dir.pieceCap)
  let member (n : Nat) : Bool :=
    decide (s.pieceCode n = PieceState.inStock.toNat ∧ s.loadNat .piece (n - 1) 6 = i + 1 ∧ s.loadNat .piece (n - 1) 5 = w 0)
  let naming := s.pieceNumbers.filter (fun n =>
    decide (s.pieceCode n = PieceState.inStock.toNat ∧ s.loadNat .piece (n - 1) 6 = i + 1))
  recordFault .slot i
    [decide (w 0 < s.dir.zones ∧ 1 ≤ w 1 ∧ w 1 ≤ 6 ∧ w 2 ≤ 1),
     decide (w 3 ≤ w 1) && stack.all known && distinct stack && neverLonger (stack.map s.loadedLength),
     stack.all member && decide (naming.length = w 3),
     decide (w 10 ≤ Config.claimsMax) && distinct (claims.map (·.move)) &&
       claims.all (fun c => known c.piece && decide (s.loadNat .piece (c.piece - 1) 7 = c.move)) &&
       claims.all (fun c => decide (c.op = .place) || stack.contains c.piece),
     loadedFirst s.claimOnHook claims &&
       (claimTest s.loadedLength (w 1) (startTest stack) (claims.filter s.claimOnHook)).passed]

/-- Whether a move table entry is live by its record. -/
def State.entryLive (s : State) (j : Nat) : Bool :=
  match MoveState.ofNat? (s.loadNat .moveTable j 10) with
  | some x => x.live
  | none => false

/-- Whether a move table entry is EMPTY, DONE or ABORTED by its record; a code that is no move state is left to
the Move Controller's own check (R129, R172). -/
def State.entryEnded (s : State) (j : Nat) : Bool :=
  match MoveState.ofNat? (s.loadNat .moveTable j 10) with
  | some x => !x.live
  | none => false

/-- Whether a claim of slot `i` (counted from 0) matches a move table entry that has not ended: its piece, and
the slot that is the move's source or destination. The source of a LIFT is a bed and the destination of a PARK a
zone, so neither names a slot there (section 8.1). -/
def State.claimMatches (s : State) (i : Nat) (c : Claim) : Bool :=
  (countFrom 0 16).any (fun j =>
    let kind := MoveKind.ofNat? (s.loadNat .moveTable j 1)
    !(s.entryEnded j) &&
    decide (s.loadNat .moveTable j 0 = c.move ∧ s.loadNat .moveTable j 3 = c.piece ∧ kind ≠ some .park) &&
    (match c.op with
     | .pick => decide (s.loadNat .moveTable j 7 = i + 1 ∧ kind ≠ some .lift)
     | .place => decide (s.loadNat .moveTable j 4 = i + 1)))

/-- The claims of one slot against the move table. -/
def State.claimsFault (s : State) (i : Nat) : Fault? :=
  recordFault .slot i [(s.loadedClaims i).all (s.claimMatches i)]

def State.stockFault (s : State) : Fault? :=
  ((firstFault s.pieceFault s.pieceNumbers).or (firstFault s.slotFault (countFrom 0 s.dir.slotCount))).or
    (firstFault s.claimsFault (countFrom 0 s.dir.slotCount))

/-! ### Runway Monitor (R149) -/

def isSigned24 (w : Word) : Bool := decide (-8388608 ≤ w.toInt ∧ w.toInt ≤ 8388607)

/-- The checks of one crane record. -/
def State.craneRecordFault (s : State) (c : Fin 2) : Fault? :=
  let w (o : Nat) : Word := s.loadWord .crane c.val o
  recordFault .crane c.val
    [decide (64 ≤ (w 0).toNat ∧ (w 0).toNat ≤ 65535), isSigned24 (w 1) && isSigned24 (w 2),
     decide (5 ≤ (w 3).toNat ∧ (w 3).toNat ≤ 100), decide ((w 4).toNat ≤ 1)]

/-! ### Move Controller (R172) -/

/-- A move table entry's recorded state. -/
def State.loadedState (s : State) (j : Nat) : MoveState := (MoveState.ofNat? (s.loadNat .moveTable j 10)).getD .empty

/-- A phase that a move can be suspended in (R166). -/
def MoveState.rememberable (x : MoveState) : Bool := x.active && decide (x ≠ .suspended)

/-- A SUSPENDED entry's remembered phase, if it is a valid one. -/
def State.loadedRemembered (s : State) (j : Nat) : Option MoveState :=
  (MoveState.ofNat? (s.loadNat .moveTable j 11)).filter MoveState.rememberable

/-- The state, or the remembered phase of a SUSPENDED move. -/
def State.loadedPhase (s : State) (j : Nat) : MoveState :=
  if s.loadedState j = .suspended then (s.loadedRemembered j).getD .suspended else s.loadedState j

/-- Whether some piece ON_HOOK names a move number as its claiming move. -/
def State.hooksFor (s : State) (number : Nat) : Bool :=
  s.pieceNumbers.any (fun n =>
    decide (s.pieceCode n = PieceState.onHook.toNat ∧ s.loadNat .piece (n - 1) 7 = number))

/-- Whether an entry is loaded: its own piece is ON_HOOK for it (R151). -/
def State.entryLoaded (s : State) (j : Nat) : Bool :=
  let n := s.loadNat .moveTable j 3
  s.entryLive j && decide (1 ≤ n ∧ n ≤ s.dir.pieceCap ∧ s.pieceCode n = PieceState.onHook.toNat ∧
    s.loadNat .piece (n - 1) 7 = s.loadNat .moveTable j 0)

/-- Whether a phase is one at which nothing hangs on the hook (R172). -/
def MoveState.unloadedPhase (x : MoveState) : Bool := decide (x ∈ [.queued, .toPick, .atPick, .toPark, .done, .aborted])

/-- Whether a state is one at which the move's piece hangs on the hook (R172). -/
def MoveState.loadedPhase (x : MoveState) : Bool := decide (x ∈ [.hooked, .toPlace, .atPlace, .landed])

/-- Whether an entry with a move number is live. -/
def State.numberLive (s : State) (number : Nat) : Bool :=
  (countFrom 0 16).any (fun j => s.entryLive j && decide (s.loadNat .moveTable j 0 = number))

/-- The checks of one move table entry, in the order of R172's table. A number taken again by a live move belongs to
that move alone (log entry 17). R172 does not say which entry a failed Duplicate or Crane check names: it is the later
one in index order, at which the number recurs or the crane's moves become too many (DESIGN CHOICE, log entry 62). -/
def State.entryFault (s : State) (j : Nat) : Fault? :=
  let w (o : Nat) : Nat := s.loadNat .moveTable j o
  let state := s.loadedState j
  let empty := decide (state = .empty)
  let live := s.entryLive j
  let upTo := (countFrom 0 (j + 1)).filter (fun k => s.entryLive k && decide (s.loadNat .moveTable k 2 = w 2))
  recordFault .moveTable j
    [decide (w 10 ≤ 12),
     empty || (decide (w 0 ≠ 0 ∧ w 1 ≤ 3 ∧ w 2 ≤ 1) && (decide (state ≠ .suspended) || (s.loadedRemembered j).isSome)),
     !live || !((countFrom 0 j).any (fun k => s.entryLive k && decide (s.loadNat .moveTable k 0 = w 0))),
     empty || ((!(s.loadedPhase j).unloadedPhase || !(s.hooksFor (w 0)) || (!live && s.numberLive (w 0))) &&
       (!state.loadedPhase || s.entryLoaded j)),
     !live || decide ((upTo.filter s.entryLoaded).length ≤ 1 ∧ upTo.length ≤ Config.queueMax)]

/-- The check of the pieces on the hook, and of the next intake index; they name entry 0 (log entry 17). -/
def State.hookFault (s : State) : Fault? :=
  recordFault .moveTable 0
    [s.pieceNumbers.all (fun n =>
       decide (s.pieceCode n ≠ PieceState.onHook.toNat) || s.numberLive (s.loadNat .piece (n - 1) 7)),
     decide (s.loadNat .directory 0 40 < s.loadNat .directory 0 17)]

/-- The checks of the move table (R172). The Hook and Index checks are of no one entry, and R172 does not say when they
are made: they come after every entry's own checks, its Crane check included (DESIGN CHOICE, log entry 62). -/
def State.moveFault (s : State) : Fault? := (firstFault s.entryFault (countFrom 0 16)).or s.hookFault

/-! ### Steam Allocator (R108) and Notice Unit (R181) -/

/-- The copy a letter names (R190). -/
def gateCopy? (letter : Nat) : Option GateCopy := if letter = 0 then some .a else if letter = 1 then some .b else none

/-- The checks of the active gate list copy (R108). A bad copy letter is named as it stands, and the load result word
keeps its low 16 bits (`lifecycleWords`; DESIGN CHOICE, log entry 59). -/
def State.gateFault (s : State) : Fault? :=
  let letter := s.loadNat .directory 0 31
  match gateCopy? letter with
  | none => some (Region.code .gateA, letter)
  | some g => if gateTest (s.loaded g.region) = .none then none else some (Region.code .gateA, letter)

/-- Every alarm block (R181). R181 gives no order among the blocks, and reads the loop alarms with the directory: the
states are checked in the order beds, roster, cranes, loops (DESIGN CHOICE, log entry 64). -/
def State.alarmRefs (s : State) : List AlarmRef :=
  (List.finRange 24).map .bed ++ (countFrom 0 s.dir.rosterCount).map .probe ++
  (List.finRange 2).map .crane ++ (List.finRange 4).map .loop

/-- A word of an alarm block as the load reads found it. -/
def State.loadedAlarm (s : State) (r : AlarmRef) (k : Nat) : Word :=
  s.loadWord (alarmPlace r).region (alarmPlace r).index ((alarmPlace r).offset + k)

/-- The entry a bad alarm state names; in the directory the offset of the word (log entry 17). -/
def alarmIndex (r : AlarmRef) : Nat :=
  match r with
  | .loop _ => (alarmPlace r).offset
  | _ => (alarmPlace r).index

/-- The Notice Unit's checks: the notice head and tail, then the alarm states (R181). With both of N or more R181 names
no order between them: the head is checked first, so the load result names its word, 26 (DESIGN CHOICE, log entry 65). -/
def State.noticeFault (s : State) : Fault? :=
  let n := s.loadNat .directory 0 20
  if n ≤ s.loadNat .directory 0 26 then some (Region.code .directory, 26)
  else if n ≤ s.loadNat .directory 0 25 then some (Region.code .directory, 25)
  else
    firstFault (fun r =>
      if (AlarmState.ofNat? (s.loadedAlarm r 0).toNat).isSome then none
      else some ((alarmPlace r).region.code, alarmIndex r)) s.alarmRefs

end Sys2Proof.Machine
end

