-- ==== Sys2Proof/Machine/Loading.lean ====
section
/-! DEFINITION. Power-on reset, loading, and works restart (R183 to R188): the directory read, the load
reads, the builds of the blocks in their fixed order (R185), the end of loading, and the quiet path. -/

namespace Sys2Proof.Machine

/-! ### Power-on reset and works restart (R183, R188, R49) -/

/-- The state of the blocks at power-on, with the levels of the inputs as they are (log entry 5). -/
def powerOnCrane (x : Crane) : Crane :=
  { Crane.reset with
    mon := { Monitor.reset with chanA := x.mon.chanA, chanB := x.mon.chanB, feedback := x.mon.feedback, cabStop := x.mon.cabStop },
    cab := { CabSide.reset with cabReady := x.cab.cabReady, rx := x.cab.rx.atLevel } }

/-- Every block at its power-on values: the part's own values of the path and the directory are given. A write that
power-on reset abandons at the memory port (R183) leaves works memory as it was: whether it has reached the cells the spec
does not say (DESIGN CHOICE, log entry 68). -/
def powerOn (path : PathUnit) (dir : DirectoryUnit) (s : State) : State :=
  { State.reset with
    pending := s.pending, mem := s.mem, path := path, dir := dir, yardStop := s.yardStop,
    steam := { SteamUnit.reset with lowFire := s.steam.lowFire },
    loops := s.loops.map (fun l => { Loop.reset with rx := l.rx.atLevel }),
    cranes := s.cranes.map powerOnCrane }

/-- The power-on reset input goes active and then inactive: transfers in progress are abandoned, the straps
are sampled, and the directory read is asked for (R183, R184). -/
def powerOnReset (straps : Fin 8) (s : State) : State :=
  let base := straps.val * Config.dirselStep
  powerOn (PathUnit.loading base none) (DirectoryUnit.loading base) s

/-- The Directory Unit after a works restart: the base and the works time are kept, and the directory's
stored works time is not taken (R188, R189). -/
def restartedDirectory (d : DirectoryUnit) : DirectoryUnit :=
  { DirectoryUnit.loading d.base with worksTime := d.worksTime, counting := d.counting, takeTime := false }

/-- A transfer still WAITING at the end of a restart stays so, with no slot reserved (R49). -/
def restartedHost (h : HostPort) : HostPort :=
  { h with up := h.up.map (fun u => { u with reserved := false }) }

/-- Whether a taken host transfer has yet to be finished (R49). -/
def State.hostBusy (s : State) : Bool :=
  match s.host.up with
  | some u => decide (u.stage ≠ .waiting)
  | none => false

/-- Whether the path is quiet after a restart event (R49): no group in flight, nothing under way on the
port, and no taken host transfer unfinished (log entry 18). -/
def State.quiet (s : State) : Bool :=
  s.dir.restartPending && decide (s.groupsInFlight = 0) && s.path.current.isNone && decide (s.path.port = .free) && !s.hostBusy

/-- The path is quiet: the part does what power-on reset does, but keeps the DIRSEL base, the memory fault
record and the works time, and loads again (R188). -/
def pathQuiet (s : State) : State :=
  if s.quiet then
    { powerOn (PathUnit.loading s.dir.base s.path.fault) (restartedDirectory s.dir) s with
      host := restartedHost s.host, clockMs := s.clockMs }
  else s

/-! ### The directory read (R184) -/

/-- The memory fault stored in the directory, if it holds one (R45, R190). -/
def storedFault (d : List Word) : Option FaultRecord :=
  let w (o : Nat) : Word := d.getD o 0
  match FaultCode.ofNat? (bitsAt (w 38) 0 8), FaultSource.ofNat? (bitsAt (w 38) 8 8) with
  | some kind, some source => some ⟨(w 37).toNat, kind, source, (w 38).getLsbD 16, w 39⟩
  | _, _ => none

/-- The region windows of a directory that has passed its checks (R26). -/
def windowsOf (base : Nat) (d : List Word) : List Window :=
  directoryWindow base :: (namedRegions d).map (fun n => ⟨n.region, n.base, n.size, n.region.recLen⟩)

/-- The directory plan words the blocks use. -/
def takePlan (d : List Word) (s : State) : State :=
  let w (o : Nat) : Nat := (d.getD o 0).toNat
  s.withDir { s.dir with zones := w 2, bayZone := w 3, budget := w 4, pieceCap := w 9, slotCount := w 11, rosterCount := w 13 }

/-- The load reads: each block asks for its regions (R185), the gate list copy being the one the
directory names (R108). R185 gives no order among them: they are asked for as listed here, and of several that fail the
load result names the first in this order (DESIGN CHOICE, log entry 67). -/
def askLoads (d : List Word) (s : State) : State :=
  let gate : List Region := match gateCopy? (d.getD 31 0).toNat with | some g => [g.region] | none => []
  let roster : List Region := if s.dir.rosterCount = 0 then [] else [.roster]
  let regions := [Region.mix, .bed] ++ roster ++ [.piece, .slot, .crane, .moveTable, .moveRing] ++ gate
  let asked := regions.foldl (fun s r =>
    match s.window? r with
    | some w => askRead ⟨.load r, r, 0, w.size⟩ s
    | none => s) s
  { asked with load := ⟨.regions, regions, [(.directory, d)]⟩ }

/-- The live words of the directory as the part holds them, against what it read: those that differ are
refreshed "from the moment the read returns" (R184, R32, R45). -/
def refreshLive (d : List Word) (s : State) : State :=
  let stored (words : List (Nat × Word)) : List (Nat × Word) := words.map (fun w => (w.1, d.getD w.1 0))
  let live := lifecycleWords s.dir ++ refusalWords s.path.refusal ++
    (match s.path.fault with | some f => faultWords (some f) | none => [])
  refreshDirectory (changedWords (stored live) live) s

/-- The directory's checks have passed (R184): the windows, the stored fault and the works time are taken. -/
def directoryPassed (first : Bool) (d : List Word) (s : State) : State :=
  let fault := match s.path.fault with | some f => some f | none => storedFault d
  let taken := s.withPath { s.path with windows := windowsOf s.dir.base d, known := true, fault := fault }
  let timed := if first then taken.withDir { taken.dir with worksTime := d.getD 22 0 } else taken
  askLoads d (takePlan d timed)

/-- The directory read returns its data, or fails (R184, R189). -/
def directoryReturned (data : Option (List Word)) (s : State) : State :=
  let first := s.dir.takeTime
  let counted := s.withDir { s.dir with counting := true, takeTime := false, dirRead := data.isSome }
  match data with
  | none => failLoad .load .memory (Region.code .directory) 0 counted
  | some d =>
    let live := refreshLive d counted
    match directoryFault s.dir.base d with
    | some (code, index) => failLoad .load code (Region.code .directory) index live
    | none => directoryPassed first d live

/-! ### Own reads handed to their owners (R41) -/

/-- A load read returns its data, or fails (R185). -/
def loadReadDone (r : Region) (x : ReturnedRead) (s : State) : State :=
  if s.load.phase ≠ .regions then s
  else
    match x.data with
    | some ws =>
      { s with load := { s.load with awaited := s.load.awaited.filter (fun a => decide (a ≠ r)), data := s.load.data ++ [(r, ws)] } }
    | none => failLoad .load .memory r.code (r.recordIndex x.failedAt) s

/-- Hand a returned read to the owner that asked for it (R41). -/
def handRead (x : ReturnedRead) (s : State) : State :=
  match x.read.purpose with
  | .directory => directoryReturned x.data s
  | .load r => loadReadDone r x s
  | .bedIntake b => bedIntakeDone b x.data s
  | .take b => takeExamined b x.data s
  | .swap => swapExamined x.data s
  | .moveIntake _ => intakeExamined x.data s
  | .redirect i => redirectExamined i x.data s

/-- The read that returned first leaves the hold set and is handed (R41). -/
def ownReadDone (s : State) : State :=
  match s.path.returned with
  | [] => s
  | x :: rest => handRead x (s.withPath { s.path with returned := rest })

/-- The directory read returns (R184). -/
def directoryReadDone (s : State) : State :=
  match s.path.returned with
  | [] => s
  | x :: rest =>
    if x.read.purpose = .directory then directoryReturned x.data (s.withPath { s.path with returned := rest }) else s

/-! ### The builds (R22, R94, R71, R130, R149, R172, R108, R181) -/

/-- The words of a refresh whose values differ from the record as it was loaded. -/
def refreshLoaded (r : Region) (i : Nat) (words : List (Nat × Word)) (s : State) : State :=
  refresh r i (words.filter (fun w => decide (s.loadWord r i w.1 ≠ w.2))) s

/-- The use count of a mix (R1). -/
def State.countUses (s : State) (mix : Nat) : Nat :=
  ((List.finRange 24).filter (fun b => decide (s.loadNat .bed b.val 18 ≠ 0 ∧ s.loadNat .bed b.val 0 = mix))).length +
  (s.pieceNumbers.filter (fun n => decide (s.pieceCode n ≠ 0 ∧ s.pieceMix n = mix))).length

def buildMix (n : Nat) (s : State) : State := s.setMix n (mixOf (s.loadRecord .mix (n - 1)) (s.countUses n))

/-- One bed of the Bed Unit; a stale request word is written to NONE (R22). -/
def buildBed (b : Fin 24) (s : State) : State :=
  let w (o : Nat) : Nat := s.loadNat .bed b.val o
  let set := s.setBedUnit b
    { state := (BedState.ofNat? (w 18)).getD .empty, mix := w 0, pieceCount := w 1,
      inBed := sortBy s.positionOf (s.loadedInBed b), request := none, deferred := [] }
  if w 17 = 0 then set else refresh .bed b.val [(17, 0)] set

def buildBedUnit (s : State) : State :=
  let mixes := (countFrom 1 16).foldl (fun s n => buildMix n s) s
  let free := (s.pieceNumbers.filter (fun n => decide (s.pieceCode n = 0))).length
  forBeds buildBed { mixes with freeCount := free }

/-- The context of a resumed cure (R94). -/
def resumedContext (record : List Word) : CureContext :=
  let w (o : Nat) : Word := record.getD o 0
  let c : CureContext :=
    { held := decide ((w 19).toNat = SubState.held.toNat), blind := true, overheat := false, sub := .blind,
      segment := bitsAt (w 20) 0 8, phase := (Phase.ofNat? (bitsAt (w 20) 8 8)).getD .moving,
      setpoint := (w 21).toInt, holdDone := (w 22).toNat, ramp := 0, duty := 0, ended := false,
      profile := activeProfile record }
  { c with sub := c.derived }

/-- One bed of the Curing Controller (R94). -/
def buildCure (b : Fin 24) (s : State) : State :=
  let record := s.loadRecord .bed b.val
  let w (o : Nat) : Word := record.getD o 0
  let state := (s.bedUnit b).state
  let context := if state = .curing then some (resumedContext record) else none
  let set := s.setCureUnit b
    { core := (w 23).toInt, air := (w 24).toInt, sighted := false, maturity := (w 25).toNat, bedState := state,
      context := context, take := .none }
  let sub : List (Nat × Word) := match context with | some c => [(19, .ofCount c.sub.toNat)] | none => []
  let take : List (Nat × Word) := if w 52 = 1 then [(52, 0)] else []
  refreshLoaded .bed b.val (sub ++ take) set

/-- One roster entry (R71). An entry loaded with enable OFF gets the counts 0 too: R71 gives them for ON alone
(DESIGN CHOICE, log entry 43). -/
def State.builtProbe (s : State) (i : Nat) : ProbeEntry :=
  let w (o : Nat) : Word := s.loadWord .roster i o
  { loop := (w 0).toNat, address := (w 1).toNat, assignment := (Assignment.ofNat? (w 2).toNat).getD .nothing,
    state := if w 3 = 1 then .suspect else .offline, miss := 0, good := 0, core := (w 6).toInt, air := (w 7).toInt,
    readingTime := w 8, outcome := .none, alarm := AlarmBlock.reset }

/-- The roster (R71). The refreshes of the entries that differ are handed in roster index order: R71 gives them no order
(DESIGN CHOICE, log entry 86). -/
def buildProbes (s : State) : State :=
  let entries := (countFrom 0 s.dir.rosterCount).map s.builtProbe
  (indexed 0 entries).foldl
    (fun s x => refreshLoaded .roster x.1 [(4, .ofCount x.2.state.toNat), (5, 0), (9, 0)] s)
    { s with roster := entries, rosterLoaded := true }

/-- One piece (R130). -/
def State.builtPiece (s : State) (n : Nat) : Piece :=
  let w (o : Nat) : Word := s.loadWord .piece (n - 1) o
  let state := (PieceState.ofNat? (w 0).toNat).getD .free
  let mix := s.pieceMix n
  { state := state, bed := bitsAt (w 1) 0 8, position := s.positionOf n, length := s.loadedLength n, mix := mix,
    zone := (w 5).toNat, slot := (w 6).toNat, claim := (w 7).toNat,
    hold := if state.holds then w 8 else 0, maturity := (w 4).toNat,
    ready := decide (state ≠ .free ∧ (s.mix mix).dispatch ≤ (w 4).toNat), request := none }

/-- One slot (R130). -/
def State.builtSlot (s : State) (i : Nat) : Slot :=
  { zone := s.loadNat .slot i 0, maxHeight := s.loadNat .slot i 1, isOpen := decide (s.loadNat .slot i 2 = 0),
    stack := s.loadedStack i, claims := s.loadedClaims i }

def buildStock (s : State) : State :=
  let pieces := s.pieceNumbers.map s.builtPiece
  let slots := (countFrom 0 s.dir.slotCount).map s.builtSlot
  let dispatched := s.pieceNumbers.filter (fun n => decide (s.pieceCode n = PieceState.dispatched.toNat))
  s.pieceNumbers.foldl
    (fun s n => if s.loadNat .piece (n - 1) 9 = 0 then s else refresh .piece (n - 1) [(9, 0)] s)
    { s with stock := ⟨pieces, slots, dispatched⟩ }

/-- One crane: the count keeps the value decoding has given it; every live word is refreshed (R149). -/
def buildCrane (c : Fin 2) (s : State) : State :=
  let w (o : Nat) : Word := s.loadWord .crane c.val o
  let x := s.crane c
  let m : Monitor :=
    { Monitor.reset with
      zoneWidth := (w 0).toNat, origin := (w 1).toInt, indexRef := (w 2).toInt, deadTime := (w 3).toNat,
      count := x.mon.count, chanA := x.mon.chanA, chanB := x.mon.chanB, feedback := x.mon.feedback, cabStop := x.mon.cabStop }
  refresh .crane c.val (monitorWords m)
    (s.setCrane c { x with mon := m, cab := { x.cab with armed := false, homed := false, posZone := none, span := none } })

/-- The link of a crane after load: QUIET with its timers at 0, slot, shifter, report list and queue empty, the
latch clear (R159, R172). -/
def CabSide.built (x : CabSide) : CabSide :=
  { x with queue := [], sequence := false, link := .quiet, quietTimer := 0, lostTimer := 0, lostRuns := false,
           reports := [], slot := none, shifter := none, blockedMark := false }

def buildLink (c : Fin 2) (s : State) : State := s.setCrane c { s.crane c with cab := (s.cab c).built }

def buildCranes (s : State) : State := forCranes buildCrane { s with cranesLoaded := true }

/-- A mirror entry as its record has it, a loaded move being SUSPENDED (R172). -/
def State.builtMove (s : State) (i : Fin 16) : Move :=
  let w (o : Nat) : Word := s.loadWord .moveTable i.val o
  let state := s.loadedState i.val
  let loaded := s.entryLoaded i.val
  let pick := bitsAt (w 8) 0 8
  { Move.reset with
    number := (w 0).toNat, kind := (MoveKind.ofNat? (w 1).toNat).getD .lift, crane := (fin? 2 (w 2).toNat).getD 0,
    piece := (w 3).toNat, dest := (w 4).toNat, waitLimit := (w 5).toNat, travelLimit := (w 6).toNat,
    source := (w 7).toNat, pickZone := if pick = 255 then none else some pick, placeZone := bitsAt (w 8) 8 8,
    serial := (w 9).toNat, state := if loaded then .suspended else state,
    remembered := if loaded then some (s.loadedPhase i.val) else s.loadedRemembered i.val,
    endReason := (List.find? (fun (c : Code) => decide (c.toNat = (w 12).toNat))
      [.host, .reserveTimeout, .travelTimeout, .linkLost, .cabRefused, .pieceHeld, .replanned, .restart]).getD .none,
    control := CtrlCode.ofNat? (w 13).toNat, newDest := (w 14).toNat, ctrlResult := w 15, accepted := loaded }

/-- A loaded move is written as SUSPENDED and stands alone in its crane's queue (R172). -/
def resumeLoaded (i : Fin 16) (s : State) : State :=
  if s.entryLoaded i.val then
    let m := s.move i
    refreshLoaded .moveTable i.val [(10, .ofCount m.state.toNat), (11, .ofCount ((m.remembered.map MoveState.toNat).getD 0))]
      (setCab m.crane { s.cab m.crane with queue := [m.number] } s)
  else s

/-- A live move without load ends ABORTED with reason RESTART, without a notice (R172). -/
def endUnloaded (i : Fin 16) (s : State) : State :=
  if s.entryLive i.val ∧ s.entryLoaded i.val = false then endAborted i .restart false false s else s

/-- Its claims are released (R125, R172). -/
def releaseUnloaded (i : Fin 16) (s : State) : State :=
  let m := s.move i
  if s.entryLive i.val ∧ s.entryLoaded i.val = false ∧ m.kind ≠ .park then (releaseMove m.number m.piece s).1 else s

/-- A ring entry whose post word holds INTAKE has it written to NONE (R172; log entry 11). -/
def clearPost (n : Nat) (s : State) : State :=
  if s.loadNat .moveRing n 7 = 1 then refresh .moveRing n [(7, 0)] s else s

/-- The Move Controller's build (R172). The counter becomes "the highest accept serial plus 1" over the entries that
are not EMPTY; an EMPTY entry's serial word does not count, and with every entry EMPTY the counter starts at 1 (DESIGN
CHOICE, log entry 63). -/
def buildMoves (s : State) : State :=
  let entries := (List.finRange 16).filter (fun i => decide (s.loadedState i.val ≠ .empty))
  let highest := entries.foldl (fun acc i => max acc (s.loadNat .moveTable i.val 9)) 0
  let size := s.loadNat .directory 0 17
  let linked := forCranes buildLink s
  let mirrored := forMoves (fun i s => s.putMove i (s.builtMove i))
    (linked.withMoves { linked.moves with ringSize := size, nextIndex := s.loadNat .directory 0 40, serial := highest + 1 })
  let ended := pumpEnds (forMoves releaseUnloaded (forMoves endUnloaded (forMoves resumeLoaded mirrored)))
  let cleared := (countFrom 0 size).foldl (fun s n => clearPost n s) ended
  forCranes (fun c s => tellPhase c (refresh .crane c.val (cabWords (s.cab c)) s)) cleared

/-- One bed of the Steam Allocator (R108). -/
def buildSteamBed (b : Fin 24) (s : State) : State :=
  refreshLoaded .bed b.val [(27, 0)]
    (s.setSteamBed b { SteamBed.reset with rating := s.loadNat .bed b.val 14, priority := s.loadNat .bed b.val 15 })

def buildSteam (s : State) : State :=
  let g := (gateCopy? (s.loadNat .directory 0 31)).getD .a
  let u := { SteamUnit.reset with active := g, lowFire := s.steam.lowFire }.start (gateEntries (s.loaded g.region))
  forBeds buildSteamBed (putGate (indexWords u ++ swapWords u) u s)

/-- One alarm block (R181): "A block loaded ACKED therefore becomes CLEAR at once, without a notice." -/
def buildAlarm (r : AlarmRef) (s : State) : State :=
  let stored := (AlarmState.ofNat? (s.loadedAlarm r 0).toNat).getD .clear
  let a : AlarmBlock := ⟨if stored = .acked then .clear else stored, 0, s.loadedAlarm r 2⟩
  refreshLoaded (alarmPlace r).region (alarmPlace r).index (alarmWords (alarmPlace r).offset a) (s.putAlarm r a)

/-- The notice ring and every alarm block (R181). The refreshes of the blocks that differ are handed in the order beds,
roster, cranes, loops: R181 gives them no order (DESIGN CHOICE, log entry 93). -/
def buildNotices (s : State) : State :=
  let head := s.loadNat .directory 0 26
  let set := s.withNotices { s.notices with
    size := s.loadNat .directory 0 20, assignedHead := head, writtenHead := head, tail := s.loadNat .directory 0 25,
    writeList := [], groupMark := false, alarmsBuilt := true }
  s.alarmRefs.foldl (fun s r => buildAlarm r s) set

/-- A block's check, and its build if it passes. -/
structure LoadBlock where
  check : State → Fault?
  build : State → State

/-- The blocks in their fixed order (R185). -/
def loadBlocks : List LoadBlock :=
  [⟨State.bedUnitFault, buildBedUnit⟩,
   ⟨fun s => firstFault s.cureFault (List.finRange 24), forBeds buildCure⟩,
   ⟨fun s => firstFault s.rosterFault (countFrom 0 s.dir.rosterCount), buildProbes⟩,
   ⟨State.stockFault, buildStock⟩,
   ⟨fun s => firstFault s.craneRecordFault (List.finRange 2), buildCranes⟩,
   ⟨State.moveFault, buildMoves⟩,
   ⟨State.gateFault, buildSteam⟩,
   ⟨State.noticeFault, buildNotices⟩]

/-- "The first BAD_RECORD ends loading, and the blocks that follow neither check nor build" (R185). -/
def runBlocks : List LoadBlock → State → State
  | [], s => { s with load := ⟨.building, [], []⟩ }
  | x :: rest, s =>
    match x.check s with
    | some (code, index) => failLoad .load .badRecord code index s
    | none => runBlocks rest (x.build s)

/-- All load reads have returned: the blocks check and build (R185). -/
def loadReadsDone (s : State) : State :=
  if s.load.phase = .regions ∧ s.load.awaited = [] then runBlocks loadBlocks s else s

/-! ### The end of loading (R185) -/

/-- Whether an item is a commit group or a refresh of a record other than the directory. -/
def OwnItem.loadWrite : OwnItem → Bool
  | .group _ => true
  | .refresh x => decide (x.region ≠ .directory)
  | .read _ => false

/-- Whether every block has built and every write handed during LOADING has completed (R185). -/
def State.loadComplete (s : State) : Bool :=
  decide (s.load.phase = .building) && !(s.path.queue.any OwnItem.loadWrite) &&
  (match s.path.current with | some c => !c.item.loadWrite | none => true) &&
  decide (s.path.answered = [] ∧ s.path.kept = [] ∧ s.moves.endChain = [])

/-- Loading ends in RUNNING (R185): loops start, cranes home and detect (R71, R149), and the pending
notices are released into the ring (R181). -/
def loadingEnd (s : State) : State :=
  if s.loadComplete then
    let running := setLifecycle { s.dir with lifecycle := .running, loadCode := .clean, safeCause := .none }
      { s with load := ⟨.idle, [], []⟩ }
    releasePending (startField running)
  else s

end Sys2Proof.Machine
end

