-- ==== Sys2Proof/Machine/Clock.lean ====
section
/-! DEFINITION. The two tick bases (00_scope.md "Time"): what counts at a short tick of 1 ms and at a long
tick of 1 s. An expiry is a command of its own, so a tick only counts (log entry 4). -/

namespace Sys2Proof.Machine

/-- The timers of a loop at a short tick: the reply time of a poll that waits (R61), the low timer of a
RUNNING loop and the high timer of a STUCK one, held while the part transmits (R67, R68). A break of 14
bit times is over by the next short tick (R59). -/
def Loop.short (x : Loop) : Loop :=
  let waits : Bool := match x.poll with | some p => p.sent | none => false
  let y := if waits then { x with replyMs := x.replyMs + 1 } else x
  if x.tx = .breakOnly then y.release
  else if x.tx ≠ .released then y
  else
    match x.line with
    | .running => { y with lowTimer := if x.rx.high then 0 else x.lowTimer + 1 }
    | .stuck => { y with highTimer := if x.rx.high then x.highTimer + 1 else 0 }
    | _ => y

/-- The break retry timer of a STUCK loop counts on the long tick (R68). -/
def Loop.long (x : Loop) : Loop :=
  match x.line with
  | .stuck => { x with breakTimer := x.breakTimer + 1 }
  | _ => x

/-- "A block timer counts down on the short tick to 0. An off timer counts up on the short tick and stops
at 10 s" (R142), whether its permit is on or off: it holds the time since that permit last turned off (R131). -/
def Monitor.short (m : Monitor) : Monitor :=
  { m with
    blockTimers := mapPermits (fun _ n => n - 1) m.blockTimers,
    offTimers := mapPermits (fun _ n => min (n + 1) Config.offTimerStop) m.offTimers }

/-- A crane's timers at a short tick; the quiet timer counts the time since the last valid block (R151, R158). -/
def Crane.short (x : Crane) : Crane :=
  { x with mon := x.mon.short, cab := { x.cab with quietTimer := x.cab.quietTimer + 1 } }

/-- The lost timer counts on the long tick while it runs (R159). -/
def Crane.long (x : Crane) : Crane :=
  { x with cab := { x.cab with lostTimer := if x.cab.lostRuns then x.cab.lostTimer + 1 else x.cab.lostTimer } }

/-- The wait timer and the travel timer count on the long tick (R156, R157). -/
def Move.long (m : Move) : Move := { m with waitTimer := m.waitTimer.map (· + 1), travelTimer := m.travelTimer.map (· + 1) }

/-- One short tick. -/
def shortTick (s : State) : State :=
  { s with
    clockMs := (s.clockMs + 1) % 1000,
    path := { s.path with portMs := if s.path.port = .free then 0 else s.path.portMs + 1 },
    loops := s.loops.map Loop.short,
    cranes := s.cranes.map Crane.short }

/-- One long tick: works time (R189), the seconds left of the gate entry (R98), and the timers counted in
seconds. In SAFE the moves' timers stand (R173). -/
def longTick (s : State) : State :=
  let counted := countWorksTime s
  { counted with
    steam := if s.running ∧ s.steam.index ≠ 0 then { counted.steam with secondsLeft := counted.steam.secondsLeft - 1 } else counted.steam,
    loops := counted.loops.map Loop.long,
    cranes := counted.cranes.map Crane.long,
    moves := if s.safe then counted.moves else { counted.moves with table := counted.moves.table.map Move.long } }

/-- What an empty queue does: one short tick, and the long tick with every thousandth of them (log entry 4). -/
def tick (s : State) : State :=
  let ticked := shortTick s
  finish (if ticked.clockMs = 0 then longTick ticked else ticked)

end Sys2Proof.Machine
end

