-- ==== Sys2Proof/Machine/HostRows.lean ====
section
/-! DEFINITION. What the command rows share: how a command answers, and a host write carried through as far
as it goes when the memory answers at once (log entry 7). -/

namespace Sys2Proof.Machine

/-- What a step answers. -/
abbrev Out := Host.Outcome State Fault Refusal

/-- A command answers with the state it leaves, once its events are settled (R38, R42, R176, R178). -/
def answer (s : State) : Out := .next (finish s)

/-- A host WRITE: it arrives, it is taken and judged if the port is free for it, and if it is issued at
once the memory answers it DONE (R24, R27, R30, R34; log entry 7). -/
def hostWriteNow (addr : Nat) (words : List WriteWord) (s : State) : State :=
  let arrived := arrive ⟨addr, .write words⟩ s
  if s.host.up.isSome then arrived
  else
    let taken := finish (takeTransfer arrived)
    match taken.path.port with
    | .host => portDone taken
    | _ => taken

/-- The word address of a word of a record, when the directory gives the record. -/
def State.wordPlace (s : State) (r : Region) (index offset : Nat) : Option Nat :=
  match s.window? r with
  | some w => if (index + 1) * r.recLen ≤ w.size then some (w.base + index * r.recLen + offset) else none
  | none => none

/-- Words written with all four byte enables. -/
def fullWords (values : List Word) : List WriteWord := values.map (fun v => ⟨v, 15#4⟩)

/-- The host writes words of one record. Where the directory gives no such record there is no word to
write, and nothing happens (log entry 19). -/
def writeRecord (r : Region) (index offset : Nat) (values : List Word) (s : State) : State :=
  match s.wordPlace r index offset with
  | some addr => hostWriteNow addr (fullWords values) s
  | none => s

/-- Whether an item is the intake read of a bed. -/
def OwnItem.isIntake (b : Fin 24) : OwnItem → Bool
  | .read rd => decide (rd.purpose = .bedIntake b)
  | _ => false

/-- The bursts of a bed's intake read are answered DONE one after another, and its data is handed, as long
as nothing else takes the port (R6, R41; log entry 7). -/
def runIntake (b : Fin 24) : Nat → State → State
  | 0, s => s
  | fuel + 1, s =>
    match s.path.current, s.path.port, s.path.returned with
    | some c, .own _, _ => if c.item.isIntake b then runIntake b fuel (finish (portDone s)) else s
    | none, _, x :: _ => if x.read.purpose = .bedIntake b then ownReadDone s else s
    | _, _, _ => s

/-- The steps an intake read of 80 words needs: five bursts and the hand-over. -/
def intakeSteps : Nat := 6

/-- The host writes a bed request (R5), and the request is carried through its intake read (R6). -/
def bedRequestRow (b : Fin 24) (code : BedCode) (s : State) : State :=
  runIntake b intakeSteps (finish (writeRecord .bed b.val 17 [.ofCount code.toNat] s))

/-- The host writes one word of the directory. -/
def directoryRow (offset : Nat) (value : Word) (s : State) : State := writeRecord .directory 0 offset [value] s

end Sys2Proof.Machine
end

