-- ==== Sys2Proof/Machine/LifecycleRows.lean ====
section
/-! DEFINITION. The lifecycle rows of the table (R183 to R189, R49). -/

namespace Sys2Proof.Machine

/-- POWER_ON_RESET (R183). -/
def execPowerOnReset (straps : Fin 8) (s : State) : Out := answer (powerOnReset straps s)

/-- DIRECTORY_READ_DONE (R184). -/
def execDirectoryReadDone (s : State) : Out := answer (directoryReadDone s)

/-- LOAD_READS_DONE (R185). -/
def execLoadReadsDone (s : State) : Out := answer (loadReadsDone s)

/-- LOADING_END (R185). -/
def execLoadingEnd (s : State) : Out := answer (loadingEnd s)

/-- SAFE: the host writes SAFE to the control word (R186, R187). -/
def execSafe (s : State) : Out := answer (directoryRow 21 2 s)

/-- RESTART: the host writes RESTART to the control word (R186, R188). -/
def execRestart (s : State) : Out := answer (directoryRow 21 1 s)

/-- PATH_QUIET (R49, R188). -/
def execPathQuiet (s : State) : Out := answer (pathQuiet s)

/-- WORKS_TIME_WRITE_BACK (R189). -/
def execWorksTimeWriteBack (s : State) : Out := answer (writeBack s)

end Sys2Proof.Machine
end

