-- ==== Sys2Proof/Machine/PathRows.lean ====
section
/-! DEFINITION. The rows of the memory path (R24 to R46). -/

namespace Sys2Proof.Machine

/-- HOST_TRANSFER_ARRIVES (R24). -/
def execHostTransferArrives (t : HostTransfer) (s : State) : Out := answer (arrive t s)

/-- TAKE_TRANSFER (R27). -/
def execTakeTransfer (s : State) : Out := answer (takeTransfer s)

/-- HOST_WRITE (R30). -/
def execHostWrite (addr : Nat) (words : List WriteWord) (s : State) : Out := answer (hostWriteNow addr words s)

/-- MEMORY_RESPONSE: a response of a transfer whose timeout was taken first is discarded (R25). -/
def execMemoryResponse (a : MemAnswer) (s : State) : Out :=
  match a with
  | .done => answer (portDone s)
  | .dataError stored => answer (portFailed .parity stored s)
  | .late => answer s

/-- MEMORY_TIMEOUT: the transfer ends as DATA_ERROR of kind TIMEOUT (R25). -/
def execMemoryTimeout (stored : Bool) (s : State) : Out := answer (portFailed .timeout stored s)

/-- FAULT_CLEAR: the host writes CLEAR to the memory fault clear word (R46). -/
def execFaultClear (s : State) : Out := answer (directoryRow 24 1 s)

/-- OWN_READ_DONE (R41). -/
def execOwnReadDone (s : State) : Out := answer (ownReadDone s)

/-- COMMIT_GROUP_ADMIT (R38). -/
def execCommitGroupAdmit (s : State) : Out := answer (admitKept s)

/-- COMMIT_GROUP_COMPLETE (R39). -/
def execCommitGroupComplete (s : State) : Out := answer (groupComplete s)

end Sys2Proof.Machine
end

