-- ==== Sys2Proof/Machine/BedRows.lean ====
section
/-! DEFINITION. The bed request rows (R8 to R16). -/

namespace Sys2Proof.Machine

/-- PREPARE (R8). -/
def execPrepare (b : Fin 24) (s : State) : Out := answer (bedRequestRow b .prepare s)

/-- CAST (R9). -/
def execCast (b : Fin 24) (s : State) : Out := answer (bedRequestRow b .cast s)

/-- START_CURE (R11). -/
def execStartCure (b : Fin 24) (s : State) : Out := answer (bedRequestRow b .startCure s)

/-- STAND (R12). -/
def execStand (b : Fin 24) (s : State) : Out := answer (bedRequestRow b .stand s)

/-- HOLD (R13). -/
def execHold (b : Fin 24) (s : State) : Out := answer (bedRequestRow b .hold s)

/-- RESUME (R13). -/
def execResume (b : Fin 24) (s : State) : Out := answer (bedRequestRow b .resume s)

/-- END_CURE (R14). -/
def execEndCure (b : Fin 24) (s : State) : Out := answer (bedRequestRow b .endCure s)

/-- DETENSION (R15). -/
def execDetension (b : Fin 24) (s : State) : Out := answer (bedRequestRow b .detension s)

/-- CLEAR (R16). -/
def execClear (b : Fin 24) (s : State) : Out := answer (bedRequestRow b .clear s)

end Sys2Proof.Machine
end

