-- ==== Sys2Proof/Machine/ProbeRows.lean ====
section
/-! DEFINITION. The probe loop rows (R53, R59 to R68). -/

namespace Sys2Proof.Machine

/-- POLL_SLOT (R64, R68). -/
def execPollSlot (l : Fin 4) (s : State) : Out := answer (pollSlot l s)

/-- POLL_SENT (R59, R61). -/
def execPollSent (l : Fin 4) (s : State) : Out := answer (pollSent l s)

/-- REPLY_WINDOW_EXPIRY: no start bit within 20 ms (R61). -/
def execReplyWindowExpiry (l : Fin 4) (s : State) : Out := answer (windowExpiry l s)

/-- REPLY_LIMIT_EXPIRY: the reply block has not ended after 40 ms (R61). -/
def execReplyLimitExpiry (l : Fin 4) (s : State) : Out := answer (endWaitingPoll l (.miss .timeout) s)

/-- PROBE_REPLY: the line as the receiver samples it, up to the gap that ends a reply block (R60 to R63). -/
def execProbeReply (l : Fin 4) (samples : List Bool) (s : State) : Out := answer (probeReply l samples s)

/-- LOW_TIMER_EXPIRY (R67). -/
def execLowTimerExpiry (l : Fin 4) (s : State) : Out := answer (becomeStuck l s)

/-- HIGH_TIMER_EXPIRY (R68). -/
def execHighTimerExpiry (l : Fin 4) (s : State) : Out := answer (recoverLoop l s)

/-- BREAK_RETRY_EXPIRY (R68). -/
def execBreakRetryExpiry (l : Fin 4) (s : State) : Out := answer (retryBreak l s)

/-- START_SEQUENCE_DONE (R66). -/
def execStartSequenceDone (l : Fin 4) (s : State) : Out := answer (startSequenceDone l s)

/-- ENABLE_ON: the host writes ON to an enable word (R52, R53). -/
def execEnableOn (entry : Nat) (s : State) : Out := answer (writeRecord .roster entry 3 [1] s)

/-- ENABLE_OFF: the host writes OFF to an enable word (R52, R53). -/
def execEnableOff (entry : Nat) (s : State) : Out := answer (writeRecord .roster entry 3 [0] s)

end Sys2Proof.Machine
end

