-- ==== Sys2Proof/Machine/HeatRows.lean ====
section
/-! DEFINITION. The rows of curing heat and the steam budget (R75 to R107). -/

namespace Sys2Proof.Machine

/-- CONTROL_STEP (R83). -/
def execControlStep (s : State) : Out := answer (controlStep s)

/-- MATURITY_STEP (R89). -/
def execMaturityStep (s : State) : Out := answer (maturityStep s)

/-- TAKE: the host writes TAKE to the TAKE word (R75, R77). -/
def execTake (b : Fin 24) (s : State) : Out := answer (writeRecord .bed b.val 52 [1] s)

/-- GATE_ENTRY_EXPIRY (R98, R101). -/
def execGateEntryExpiry (s : State) : Out := answer (gateExpiry s)

/-- SWAP: the host writes SWAP to the heat control word (R99, R100). -/
def execSwap (s : State) : Out := answer (directoryRow 23 1 s)

/-- CANCEL: the host writes CANCEL to the heat control word (R99, R100). -/
def execCancel (s : State) : Out := answer (directoryRow 23 2 s)

/-- ADMISSION_ROUND (R103). -/
def execAdmissionRound (lowFire : Bool) (s : State) : Out := answer (admissionRound lowFire s)

/-- VALVE_STEP (R106). -/
def execValveStep (s : State) : Out := answer (valveStep s)

end Sys2Proof.Machine
end

