-- ==== Sys2Proof/Machine/StockRows.lean ====
section
/-! DEFINITION. The piece rows (R114, R127). -/

namespace Sys2Proof.Machine

/-- SCRAP: the host writes SCRAP to a piece's request word (R113, R114). -/
def execScrap (piece : Nat) (s : State) : Out :=
  answer (if piece = 0 then s else writeRecord .piece (piece - 1) 9 [1] s)

/-- FREE: the host writes FREE to a piece's request word (R113, R114). -/
def execFree (piece : Nat) (s : State) : Out :=
  answer (if piece = 0 then s else writeRecord .piece (piece - 1) 9 [2] s)

/-- YARD_MATURITY_STEP (R127). -/
def execYardMaturityStep (s : State) : Out := answer (yardMaturityStep s)

end Sys2Proof.Machine
end

