-- ==== Sys2Proof/Machine/RunwayRows.lean ====
section
/-! DEFINITION. The runway rows (R133 to R148). -/

namespace Sys2Proof.Machine

/-- COUNT_EDGE (R133, R134). -/
def execCountEdge (c : Fin 2) (dir : Direction) (s : State) : Out := answer (encoderStep c dir s)

/-- ILLEGAL_TRANSITION (R133). -/
def execIllegalTransition (c : Fin 2) (s : State) : Out := answer (illegalTransition c s)

/-- INDEX_MARKER: the marker becomes active, and the next count edge is taken if it is given (R134). -/
def execIndexMarker (c : Fin 2) (edge : Option Direction) (s : State) : Out :=
  answer (match edge with
    | some dir => encoderStep c dir (indexMarker c s)
    | none => indexMarker c s)

/-- FEEDBACK_CHANGE (R145). -/
def execFeedbackChange (c : Fin 2) (p : Permit) (active : Bool) (s : State) : Out :=
  answer (feedbackChange c p active s)

/-- OFF_TIMER_EXPIRY (R145). -/
def execOffTimerExpiry (c : Fin 2) (p : Permit) (s : State) : Out := answer (offTimerExpiry c p s)

/-- CAB_STOP (R145). -/
def execCabStop (c : Fin 2) (active : Bool) (s : State) : Out := answer (cabStopChange c active s)

/-- YARD_STOP (R145). -/
def execYardStop (active : Bool) (s : State) : Out := answer (yardStopChange active s)

/-- BLOCK_TIMER_EXPIRY (R142). -/
def execBlockTimerExpiry (c : Fin 2) (p : Permit) (s : State) : Out := answer (blockTimerExpiry c p s)

/-- ARM: the host writes ARM to a crane's control word (R147, R148). -/
def execArm (c : Fin 2) (s : State) : Out := answer (writeRecord .crane c.val 4 [1] s)

end Sys2Proof.Machine
end

