-- ==== Sys2Proof/Machine/MoveRows.lean ====
section
/-! DEFINITION. The crane move rows (R153 to R171). A cab report is a clean block of its kind (log entry 8). -/

namespace Sys2Proof.Machine

/-- A character read clean: no framing flag (R158). -/
def cleanChar (v : BitVec 8) : RxChar := ⟨v, false, false, false⟩

/-- The eight characters of a report (R191), with its check byte (section 8.4). -/
def reportBlock (kind : ReportKind) (r : CabReport) : List RxChar :=
  (withCheck [BitVec.ofNat 8 kind.toNat, r.tag, r.zone, r.piece.extractLsb' 8 8, r.piece.extractLsb' 0 8,
    r.load.extractLsb' 8 8, r.load.extractLsb' 0 8]).map cleanChar

/-- INTAKE: the host posts a ring entry (R152, R153). -/
def execIntake (entry : Nat) (s : State) : Out := answer (writeRecord .moveRing entry 7 [1] s)

/-- MOVE_START (R156). -/
def execMoveStart (c : Fin 2) (s : State) : Out := answer (moveStart c s)

/-- WAIT_TIMER_EXPIRY (R157). -/
def execWaitTimerExpiry (c : Fin 2) (s : State) : Out := answer (waitExpiry c s)

/-- TRAVEL_TIMER_EXPIRY (R167). -/
def execTravelTimerExpiry (c : Fin 2) (s : State) : Out := answer (travelExpiry c s)

/-- CAB_BLOCK: the line as the receiver samples it, up to the gap that ends a block (R158). -/
def execCabBlock (c : Fin 2) (samples : List Bool) (s : State) : Out := answer (cabBlock c samples s)

/-- STATUS (R161). -/
def execStatus (c : Fin 2) (r : CabReport) (s : State) : Out := answer (cleanBlock c (reportBlock .status r) s)

/-- ARRIVED (R162). -/
def execArrived (c : Fin 2) (r : CabReport) (s : State) : Out := answer (cleanBlock c (reportBlock .arrived r) s)

/-- HOOKED (R163). -/
def execHooked (c : Fin 2) (r : CabReport) (s : State) : Out := answer (cleanBlock c (reportBlock .hooked r) s)

/-- LIFTED (R164). -/
def execLifted (c : Fin 2) (r : CabReport) (s : State) : Out := answer (cleanBlock c (reportBlock .lifted r) s)

/-- LANDED (R164). -/
def execLanded (c : Fin 2) (r : CabReport) (s : State) : Out := answer (cleanBlock c (reportBlock .landed r) s)

/-- UNHOOKED (R164). -/
def execUnhooked (c : Fin 2) (r : CabReport) (s : State) : Out := answer (cleanBlock c (reportBlock .unhooked r) s)

/-- CANNOT (R165). -/
def execCannot (c : Fin 2) (r : CabReport) (s : State) : Out := answer (cleanBlock c (reportBlock .cannot r) s)

/-- QUIET_TIMER_EXPIRY (R159). -/
def execQuietTimerExpiry (c : Fin 2) (s : State) : Out := answer (quietExpiry c s)

/-- LOST_TIMER_EXPIRY (R159). -/
def execLostTimerExpiry (c : Fin 2) (s : State) : Out := answer (lostExpiry c s)

/-- CAB_READY (R160). -/
def execCabReady (c : Fin 2) (active : Bool) (s : State) : Out :=
  answer (shiftCab c (setCab c { s.cab c with cabReady := active } s))

/-- SHIFTER_FREE (R160). -/
def execShifterFree (c : Fin 2) (s : State) : Out :=
  answer (shiftCab c (setCab c { s.cab c with shifter := none } s))

/-- MOVE_RESUME (R166). -/
def execMoveResume (c : Fin 2) (s : State) : Out := answer (moveResume c s)

/-- ABORT: the host writes ABORT to a control word (R169, R170). -/
def execAbort (entry : Fin 16) (s : State) : Out := answer (writeRecord .moveTable entry.val 13 [1] s)

/-- REDIRECT: the host writes the new destination with REDIRECT in one transfer (R169, R171). -/
def execRedirect (entry : Fin 16) (destination : Word) (s : State) : Out :=
  answer (writeRecord .moveTable entry.val 13 [2, destination] s)

end Sys2Proof.Machine
end

