-- ==== Sys2Proof/Machine/NoticeRows.lean ====
section
/-! DEFINITION. The notice and alarm rows (R177, R180). -/

namespace Sys2Proof.Machine

/-- NOTICE_TAIL: the host writes the notice tail word (R177). -/
def execNoticeTail (tail : Word) (s : State) : Out := answer (directoryRow 25 tail s)

/-- ACK: the host writes ACK to an acknowledge word (R180). -/
def execAck (r : AlarmRef) (s : State) : Out :=
  answer (writeRecord (alarmPlace r).region (alarmPlace r).index ((alarmPlace r).offset + 3) [1] s)

end Sys2Proof.Machine
end

