-- ==== Sys2Proof/Machine/Dispatch.lean ====
section
/-! DEFINITION. One arm per command: the meaning of each row of spec/opcode_table.json. -/

namespace Sys2Proof.Machine

def exec (i : Instr) (s : State) : Host.Outcome State Fault Refusal :=
  match i with
  | .powerOnReset straps => Sys2Proof.Machine.execPowerOnReset straps s
  | .directoryReadDone => Sys2Proof.Machine.execDirectoryReadDone s
  | .loadReadsDone => Sys2Proof.Machine.execLoadReadsDone s
  | .loadingEnd => Sys2Proof.Machine.execLoadingEnd s
  | .safe => Sys2Proof.Machine.execSafe s
  | .restart => Sys2Proof.Machine.execRestart s
  | .pathQuiet => Sys2Proof.Machine.execPathQuiet s
  | .worksTimeWriteBack => Sys2Proof.Machine.execWorksTimeWriteBack s
  | .hostTransferArrives t => Sys2Proof.Machine.execHostTransferArrives t s
  | .takeTransfer => Sys2Proof.Machine.execTakeTransfer s
  | .hostWrite addr words => Sys2Proof.Machine.execHostWrite addr words s
  | .memoryResponse a => Sys2Proof.Machine.execMemoryResponse a s
  | .memoryTimeout stored => Sys2Proof.Machine.execMemoryTimeout stored s
  | .faultClear => Sys2Proof.Machine.execFaultClear s
  | .ownReadDone => Sys2Proof.Machine.execOwnReadDone s
  | .commitGroupAdmit => Sys2Proof.Machine.execCommitGroupAdmit s
  | .commitGroupComplete => Sys2Proof.Machine.execCommitGroupComplete s
  | .prepare b => Sys2Proof.Machine.execPrepare b s
  | .cast b => Sys2Proof.Machine.execCast b s
  | .startCure b => Sys2Proof.Machine.execStartCure b s
  | .stand b => Sys2Proof.Machine.execStand b s
  | .hold b => Sys2Proof.Machine.execHold b s
  | .resume b => Sys2Proof.Machine.execResume b s
  | .endCure b => Sys2Proof.Machine.execEndCure b s
  | .detension b => Sys2Proof.Machine.execDetension b s
  | .clear b => Sys2Proof.Machine.execClear b s
  | .pollSlot l => Sys2Proof.Machine.execPollSlot l s
  | .pollSent l => Sys2Proof.Machine.execPollSent l s
  | .replyWindowExpiry l => Sys2Proof.Machine.execReplyWindowExpiry l s
  | .replyLimitExpiry l => Sys2Proof.Machine.execReplyLimitExpiry l s
  | .probeReply l samples => Sys2Proof.Machine.execProbeReply l samples s
  | .lowTimerExpiry l => Sys2Proof.Machine.execLowTimerExpiry l s
  | .highTimerExpiry l => Sys2Proof.Machine.execHighTimerExpiry l s
  | .breakRetryExpiry l => Sys2Proof.Machine.execBreakRetryExpiry l s
  | .startSequenceDone l => Sys2Proof.Machine.execStartSequenceDone l s
  | .enableOn entry => Sys2Proof.Machine.execEnableOn entry s
  | .enableOff entry => Sys2Proof.Machine.execEnableOff entry s
  | .controlStep => Sys2Proof.Machine.execControlStep s
  | .maturityStep => Sys2Proof.Machine.execMaturityStep s
  | .take b => Sys2Proof.Machine.execTake b s
  | .gateEntryExpiry => Sys2Proof.Machine.execGateEntryExpiry s
  | .swap => Sys2Proof.Machine.execSwap s
  | .cancel => Sys2Proof.Machine.execCancel s
  | .admissionRound lowFire => Sys2Proof.Machine.execAdmissionRound lowFire s
  | .valveStep => Sys2Proof.Machine.execValveStep s
  | .scrap piece => Sys2Proof.Machine.execScrap piece s
  | .free piece => Sys2Proof.Machine.execFree piece s
  | .yardMaturityStep => Sys2Proof.Machine.execYardMaturityStep s
  | .countEdge c dir => Sys2Proof.Machine.execCountEdge c dir s
  | .illegalTransition c => Sys2Proof.Machine.execIllegalTransition c s
  | .indexMarker c edge => Sys2Proof.Machine.execIndexMarker c edge s
  | .feedbackChange c p active => Sys2Proof.Machine.execFeedbackChange c p active s
  | .offTimerExpiry c p => Sys2Proof.Machine.execOffTimerExpiry c p s
  | .cabStop c active => Sys2Proof.Machine.execCabStop c active s
  | .yardStop active => Sys2Proof.Machine.execYardStop active s
  | .blockTimerExpiry c p => Sys2Proof.Machine.execBlockTimerExpiry c p s
  | .arm c => Sys2Proof.Machine.execArm c s
  | .intake entry => Sys2Proof.Machine.execIntake entry s
  | .moveStart c => Sys2Proof.Machine.execMoveStart c s
  | .waitTimerExpiry c => Sys2Proof.Machine.execWaitTimerExpiry c s
  | .travelTimerExpiry c => Sys2Proof.Machine.execTravelTimerExpiry c s
  | .cabBlock c samples => Sys2Proof.Machine.execCabBlock c samples s
  | .status c r => Sys2Proof.Machine.execStatus c r s
  | .arrived c r => Sys2Proof.Machine.execArrived c r s
  | .hooked c r => Sys2Proof.Machine.execHooked c r s
  | .lifted c r => Sys2Proof.Machine.execLifted c r s
  | .landed c r => Sys2Proof.Machine.execLanded c r s
  | .unhooked c r => Sys2Proof.Machine.execUnhooked c r s
  | .cannot c r => Sys2Proof.Machine.execCannot c r s
  | .quietTimerExpiry c => Sys2Proof.Machine.execQuietTimerExpiry c s
  | .lostTimerExpiry c => Sys2Proof.Machine.execLostTimerExpiry c s
  | .cabReady c active => Sys2Proof.Machine.execCabReady c active s
  | .shifterFree c => Sys2Proof.Machine.execShifterFree c s
  | .moveResume c => Sys2Proof.Machine.execMoveResume c s
  | .abort entry => Sys2Proof.Machine.execAbort entry s
  | .redirect entry destination => Sys2Proof.Machine.execRedirect entry destination s
  | .noticeTail tail => Sys2Proof.Machine.execNoticeTail tail s
  | .ack r => Sys2Proof.Machine.execAck r s

end Sys2Proof.Machine
end

