-- ==== Sys2Proof/Safety.lean ====
section
/-! DEFINITION. What the statements speak of: the invariants that every step keeps, the state in which a
host write goes through within its own command, and where a word of a record lies. -/

namespace Sys2Proof.Machine

/-! ### Invariants -/

/-- Works memory keeps its canonical form (log entry 1). -/
abbrev State.MemoryCanonical (s : State) : Prop := Memory.wf s.mem = true

/-- No permit of a crane is on while the crane's permits are not allowed, or while it is not wanted: a travel permit that
is on leads to a zone of the crane's span, or outward with an empty span (R141). -/
abbrev State.PermitsKept (s : State) : Prop :=
  ∀ c : Fin 2, ∀ p ∈ allPermits, permitOf (s.mon c).permits p = true → s.permitsAllowed c = true ∧ s.permitWanted c p = true

/-- No valve is on without the terms of R106. -/
abbrev State.ValvesKept (s : State) : Prop := ∀ b : Fin 24, (s.steamBed b).valve = true → s.valveWanted b = true

/-- The spans of the two cranes are runs, and when both are held, crane 0's highest zone is at least two
below crane 1's lowest (R136). -/
def spansApart (west east : Option ZoneRun) : Bool :=
  (match west with | some r => decide (r.lo ≤ r.hi) | none => true) &&
  (match east with | some r => decide (r.lo ≤ r.hi) | none => true) &&
  (match west, east with | some a, some b => decide (a.hi + 2 ≤ b.lo) | _, _ => true)

abbrev State.SpansApart (s : State) : Prop := spansApart (s.mon 0).span (s.mon 1).span = true

/-! ### A calm part -/

/-- Whether a crane's active move stands in TO_PLACE with its arrived mark set, so that the end of a command
looks at its lowering condition (R162). -/
def State.awaitsLowering (s : State) (c : Fin 2) : Bool :=
  match s.activeMove c with
  | some i => decide ((s.move i).state = .toPlace) && (s.move i).arrived
  | none => false

/-- The runway has nothing to settle at the end of a command (R162). -/
abbrev State.RunwayCalm (s : State) : Prop := ∀ c : Fin 2, s.awaitsLowering c = false

/-- The path is idle: nothing in the upstream port, nothing on the memory port, nothing to be served. -/
abbrev State.PathIdle (s : State) : Prop :=
  s.host.up = none ∧ s.host.backlog = [] ∧ s.path.port = .free ∧ s.path.current = none ∧ s.path.queue = [] ∧
  s.path.answered = [] ∧ s.path.returned = [] ∧ s.path.outbox = [] ∧ s.path.kept = [] ∧ s.path.slotWait = []

/-- A calm part: RUNNING, with the path idle and nothing waiting to be written, so that a host write is
taken, issued and answered within its own command. -/
abbrev State.Calm (s : State) : Prop :=
  s.dir.lifecycle = .running ∧ s.dir.restartPending = false ∧ s.PathIdle ∧ s.notices.writeList = [] ∧ s.RunwayCalm

/-- A word of a record: the directory gives the record, the word lies at that word address, and no earlier
window claims the address (R26). -/
abbrev State.WordLies (s : State) (r : Region) (index offset addr : Nat) : Prop :=
  s.wordPlace r index offset = some addr ∧ locate s.path.windows addr = some ⟨r, index, offset⟩ ∧
  addr < Config.memoryWords

/-- What the end of a command may change of a state that has nothing to settle but notices: the path, the
port, the notices on their way, and the level of ATTN (R38, R42, R176, R178). -/
abbrev State.SettledAs (u t : State) : Prop :=
  t = { u with path := t.path, host := t.host, notices := t.notices, dir := { u.dir with attn := t.dir.attn } }

/-! ### A calm write -/

/-- The transfer of a host WRITE that has been issued, with the events its words carry. -/
def issuedWrite (addr : Nat) (words : List WriteWord) (events : List HostEvent) : UpTransfer :=
  ⟨⟨addr, .write words⟩, .issued, true, [], events, false, false⟩

/-- A calm part when the memory has answered a host WRITE: the words are in memory, the port is free, and
the host stream was served last (R30, R42). -/
def State.written (s : State) (addr : Nat) (words : List WriteWord) (events : List HostEvent) : State :=
  { s with
    mem := setHostWords s.mem addr words,
    host := ⟨some (issuedWrite addr words events), [], []⟩,
    path := { s.path with port := .free, portMs := 0, lastServed := .host },
    dir := { s.dir with attn := s.attnWanted } }

/-- A state whose host transfer has been answered DONE, with no transfer behind it (R24, R34). -/
def State.answeredDone (t : State) : State := { t with host := ⟨none, [], [⟨.done, []⟩]⟩ }

end Sys2Proof.Machine
end

