-- ==== Sys2Proof/Certificates/Slice0/Obligations.lean ====
section
/-! DEFINITION. The statements for the provers: what each command does, what it leaves, and what every step keeps. A
statement about a request row holds in a calm part (Safety.lean), where the host write goes through within its own command
(log entry 7); `finish` is what ends every command (SettlingKeepsTheRest says what it leaves). -/

open Sys2Proof Sys2Proof.Machine

/-! ### The queue, the clock, and how a command ends -/

/-- The command at the front of the queue runs on the queue's rest. -/
def Obligations.StepRunsTheFrontCommand : Prop :=
  ∀ (c : Instr) (rest : List Instr) (s : State), s.pending = c :: rest →
    step s = exec c { s with pending := rest }

/-- On an empty queue the part takes one short tick (the model's choice, log entry 4): works time counts at every
thousandth of them (R189), and so do the seconds of the gate entry (R98). WORKS_TIME_WRITE_BACK (R189), in every
lifecycle state: the works time word is handed for writing and the count returns to 0. -/
def Obligations.WorksTimeCountsAndIsWrittenBack : Prop :=
  (∀ s : State, s.pending = [] → ∃ t, step s = .next t ∧ t.pending = [] ∧ t.mem = s.mem ∧
     t.clockMs = (s.clockMs + 1) % 1000 ∧
     t.dir.worksTime = (if t.clockMs = 0 ∧ s.dir.counting = true then s.dir.worksTime + 1 else s.dir.worksTime) ∧
     t.steam.secondsLeft = (if t.clockMs = 0 ∧ s.dir.lifecycle = .running ∧ s.steam.index ≠ 0
       then s.steam.secondsLeft - 1 else s.steam.secondsLeft)) ∧
  (∀ s : State, ∃ u, exec .worksTimeWriteBack s = .next (finish u) ∧ u.dir.writeBack = 0 ∧
     u.dir.worksTime = s.dir.worksTime ∧ u.mem = s.mem ∧
     ∃ x : RefreshSlot, .refresh x ∈ u.path.queue ∧ x.region = .directory ∧ x.index = 0 ∧
       wordFor x.words 22 = some s.dir.worksTime)

/-- Every command is answered with a next state, and leaves the queue alone. That an event that cannot happen in a state,
and a request on a record that does not exist, are answered too and change nothing is the model's choice (log entries 26
and 19): the spec does not speak of them. -/
def Obligations.EveryCommandIsAnswered : Prop :=
  ∀ (c : Instr) (s : State), ∃ t, exec c s = .next t ∧ t.pending = s.pending

/-- What ends every command writes nothing to memory and changes no probe, no loop, no gate, no yard stop, no load and
no word of the Directory Unit but ATTN. With nothing handed and a calm runway, what ends a command changes the path,
the port, the notices on their way and ATTN alone. -/
def Obligations.SettlingKeepsTheRest : Prop :=
  (∀ s : State, (finish s).pending = s.pending ∧ (finish s).mem = s.mem ∧ (finish s).steam = s.steam ∧
     (finish s).roster = s.roster ∧ (finish s).loops = s.loops ∧ (finish s).yardStop = s.yardStop ∧
     (finish s).load = s.load ∧ (finish s).freeCount = s.freeCount ∧
     (finish s).dir = { s.dir with attn := (finish s).dir.attn }) ∧
  (∀ s : State, s.path.outbox = [] → s.RunwayCalm → s.SettledAs (finish s))

/-- ATTN after every step, and at reset (R178). -/
def Obligations.StepDrivesAttn : Prop :=
  State.reset.dir.attn = true ∧ ∀ s t : State, step s = .next t →
    t.dir.attn = decide (t.notices.writtenHead ≠ t.notices.tail ∨ t.notices.waiting ≠ [] ∨ t.dir.lifecycle ≠ .running)

/-! ### Invariants -/

/-- The reset state has every invariant. -/
def Obligations.ResetHasTheInvariants : Prop :=
  State.reset.MemoryCanonical ∧ State.reset.PermitsKept ∧ State.reset.ValvesKept ∧ State.reset.SpansApart

/-- Every step keeps the canonical form of works memory. -/
def Obligations.StepKeepsMemoryCanonical : Prop :=
  ∀ s t : State, s.MemoryCanonical → step s = .next t → t.MemoryCanonical

/-- After every step a permit of a crane is off unless the crane is ARMED, its stops are inactive, the part is RUNNING, and the
permit is wanted: a travel permit leads to a zone of the crane's span, or outward with an empty span, and HOIST_LOWER stands
for AT_PICK or AT_PLACE alone (R141). -/
def Obligations.StepKeepsPermitsAllowed : Prop :=
  ∀ s t : State, s.PermitsKept → step s = .next t → t.PermitsKept

/-- After every step a valve is on only on the terms of R106. -/
def Obligations.StepKeepsValvesWanted : Prop :=
  ∀ s t : State, s.ValvesKept → step s = .next t → t.ValvesKept

/-- After every step the reserved spans of the cranes stand apart (R136). -/
def Obligations.StepKeepsSpansApart : Prop :=
  ∀ s t : State, s.SpansApart → step s = .next t → t.SpansApart

/-! ### Frames -/

/-- The word a host request row writes, as region, record, offset and count of words; none for any other command. -/
def requestWords : Instr → Option (Region × Nat × Nat × Nat)
  | .safe => some (.directory, 0, 21, 1)
  | .restart => some (.directory, 0, 21, 1)
  | .faultClear => some (.directory, 0, 24, 1)
  | .swap => some (.directory, 0, 23, 1)
  | .cancel => some (.directory, 0, 23, 1)
  | .noticeTail _ => some (.directory, 0, 25, 1)
  | .prepare b => some (.bed, b.val, 17, 1)
  | .cast b => some (.bed, b.val, 17, 1)
  | .startCure b => some (.bed, b.val, 17, 1)
  | .stand b => some (.bed, b.val, 17, 1)
  | .hold b => some (.bed, b.val, 17, 1)
  | .resume b => some (.bed, b.val, 17, 1)
  | .endCure b => some (.bed, b.val, 17, 1)
  | .detension b => some (.bed, b.val, 17, 1)
  | .clear b => some (.bed, b.val, 17, 1)
  | .take b => some (.bed, b.val, 52, 1)
  | .enableOn n => some (.roster, n, 3, 1)
  | .enableOff n => some (.roster, n, 3, 1)
  | .scrap n => some (.piece, n - 1, 9, 1)
  | .free n => some (.piece, n - 1, 9, 1)
  | .arm c => some (.crane, c.val, 4, 1)
  | .intake n => some (.moveRing, n, 7, 1)
  | .abort i => some (.moveTable, i.val, 13, 1)
  | .redirect i _ => some (.moveTable, i.val, 13, 2)
  | .ack r => some ((alarmPlace r).region, (alarmPlace r).index, (alarmPlace r).offset + 3, 1)
  | _ => none

/-- A command that only tells the part of an event: no host write and no answer of the memory port. -/
def tellsAnEvent (c : Instr) : Bool :=
  (requestWords c).isNone &&
  match c with
  | .hostWrite _ _ => false
  | .memoryResponse _ => false
  | .memoryTimeout _ => false
  | _ => true

/-- Where a command writes memory: an event row nowhere; HOST_WRITE and the host request rows at their words alone;
the memory's answers at the words of the transfer issued. -/
def Obligations.MemoryChangesOnlyWhereWritten : Prop :=
  (∀ (c : Instr) (s t : State), tellsAnEvent c = true → exec c s = .next t → ∀ a, byteAt t.mem a = byteAt s.mem a) ∧
  (∀ (addr : Nat) (words : List WriteWord) (s t : State), (s.host.up = none → s.host.backlog = []) →
    exec (.hostWrite addr words) s = .next t → ∀ a, (a < 4 * addr ∨ 4 * (addr + words.length) ≤ a) → byteAt t.mem a = byteAt s.mem a) ∧
  (∀ (c : Instr) (r : Region) (index offset k addr : Nat) (s t : State), requestWords c = some (r, index, offset, k) →
    s.wordPlace r index offset = some addr → (s.host.up = none → s.host.backlog = []) → s.path.port = .free →
    s.path.current = none → exec c s = .next t →
    ∀ a, (a < 4 * addr ∨ 4 * (addr + k) ≤ a) → byteAt t.mem a = byteAt s.mem a) ∧
  (∀ (c : Instr) (s t : State), c ∈ [.memoryResponse .done, .memoryResponse (.dataError true),
      .memoryResponse (.dataError false), .memoryResponse .late, .memoryTimeout true, .memoryTimeout false] → exec c s = .next t →
    (s.path.port = .free → t.mem = s.mem) ∧
    (∀ r first n, s.path.port = .own (.read r first n) → t.mem = s.mem) ∧
    (∀ r first ws, s.path.port = .own (.write r first ws) → ∀ a,
      (a < 4 * (s.regionBase r + first) ∨ 4 * (s.regionBase r + first + ws.length) ≤ a) → byteAt t.mem a = byteAt s.mem a) ∧
    (∀ u n, s.path.port = .host → s.host.up = some u → u.xfer.op = .read n → t.mem = s.mem) ∧
    (∀ u ws, s.path.port = .host → s.host.up = some u → u.xfer.op = .write ws → ∀ a,
      (a < 4 * u.xfer.addr ∨ 4 * (u.xfer.addr + ws.length) ≤ a) → byteAt t.mem a = byteAt s.mem a))

/-- The probe loop rows, before what ends every command (`finish`) settles, change the roster, the loops and the notices,
and hand refreshes; the enable rows in a calm part leave beds, stock, cranes and moves. In a calm part NOTICE_TAIL,
FAULT_CLEAR and RESTART leave every owner's state but the notices, the path and the Directory Unit, and ACK leaves the
beds, the mixes, the gate and the stock. -/
def Obligations.ProbeNoticeAndPathRowsLeaveTheRest : Prop :=
  (∀ (l : Fin 4) (samples : List Bool) (c : Instr) (s : State),
    c ∈ [.pollSlot l, .pollSent l, .replyWindowExpiry l, .replyLimitExpiry l, .probeReply l samples, .lowTimerExpiry l,
      .highTimerExpiry l, .breakRetryExpiry l, .startSequenceDone l] →
    ∃ u, exec c s = .next (finish u) ∧
      u = { s with roster := u.roster, loops := u.loops, notices := u.notices, path := u.path } ∧
      ∀ k, k ≠ l → u.loop k = s.loop k) ∧
  (∀ (n addr : Nat) (c : Instr) (s t : State), c ∈ [.enableOn n, .enableOff n] → s.Calm → s.WordLies .roster n 3 addr →
    exec c s = .next t →
    t.beds = s.beds ∧ t.mixes = s.mixes ∧ t.steam = s.steam ∧ t.stock = s.stock ∧ t.cranes = s.cranes ∧ t.moves = s.moves) ∧
  (∀ (tail : Word) (c : Instr) (offset addr : Nat) (s t : State), c ∈ [.noticeTail tail, .faultClear, .restart] →
    requestWords c = some (.directory, 0, offset, 1) → s.Calm → s.WordLies .directory 0 offset addr → exec c s = .next t →
    t.beds = s.beds ∧ t.mixes = s.mixes ∧ t.freeCount = s.freeCount ∧ t.steam = s.steam ∧ t.roster = s.roster ∧
    t.loops = s.loops ∧ t.stock = s.stock ∧ t.cranes = s.cranes ∧ t.moves = s.moves) ∧
  (∀ (r : AlarmRef) (addr : Nat) (s t : State), s.Calm →
    s.WordLies (alarmPlace r).region (alarmPlace r).index ((alarmPlace r).offset + 3) addr → exec (.ack r) s = .next t →
    t.mixes = s.mixes ∧ t.freeCount = s.freeCount ∧ t.steam = s.steam ∧ t.stock = s.stock ∧
    ∀ b, t.bedUnit b = s.bedUnit b ∧ t.cureUnit b = s.cureUnit b ∧ t.steamBed b = s.steamBed b)

/-- The rows of curing, steam and stock that tell an event, before what ends every command (`finish`) settles, change the
beds, the gate, the stock and the notices alone; the host requests among them, the bed requests and the piece requests
leave roster, loops, cranes and moves of a calm part, and a bed request leaves every other bed. -/
def Obligations.BedHeatAndStockRowsLeaveTheRest : Prop :=
  (∀ (c : Instr) (s : State), c ∈ [.controlStep, .maturityStep] → ∃ u, exec c s = .next (finish u) ∧
    u = { s with beds := u.beds, notices := u.notices, path := u.path }) ∧
  (∀ (lowFire : Bool) (c : Instr) (s : State), c ∈ [.gateEntryExpiry, .admissionRound lowFire, .valveStep] →
    ∃ u, exec c s = .next (finish u) ∧ u = { s with beds := u.beds, steam := u.steam, notices := u.notices, path := u.path } ∧
      ∀ b, u.bedUnit b = s.bedUnit b ∧ u.cureUnit b = s.cureUnit b) ∧
  (∀ s : State, ∃ u, exec .yardMaturityStep s = .next (finish u) ∧
    u = { s with stock := u.stock, notices := u.notices, path := u.path } ∧ u.stock.slots = s.stock.slots) ∧
  (∀ (b : Fin 24) (c : Instr) (r : Region) (index offset k addr : Nat) (s t : State), c ∈ [.take b, .swap, .cancel] →
    requestWords c = some (r, index, offset, k) → s.Calm → s.WordLies r index offset addr → exec c s = .next t →
    t.roster = s.roster ∧ t.loops = s.loops ∧ t.stock = s.stock ∧ t.cranes = s.cranes ∧ t.moves = s.moves ∧
    ∀ k, t.bedUnit k = s.bedUnit k) ∧
  (∀ (b : Fin 24) (c : Instr) (addr : Nat) (s t : State),
    c ∈ [.prepare b, .cast b, .startCure b, .stand b, .hold b, .resume b, .endCure b, .detension b, .clear b] →
    s.Calm → s.WordLies .bed b.val 17 addr → exec c s = .next t →
    t.roster = s.roster ∧ t.loops = s.loops ∧ t.cranes = s.cranes ∧ t.moves = s.moves ∧ t.steam = s.steam ∧
    t.dir = { s.dir with attn := t.dir.attn } ∧ ∀ k, k ≠ b → t.bed k = s.bed k) ∧
  (∀ (n : Nat) (c : Instr) (addr : Nat) (s t : State), c ∈ [.scrap n, .free n] → s.Calm → s.WordLies .piece (n - 1) 9 addr →
    exec c s = .next t →
    t.roster = s.roster ∧ t.loops = s.loops ∧ t.cranes = s.cranes ∧ t.moves = s.moves ∧ t.steam = s.steam ∧
    t.dir = { s.dir with attn := t.dir.attn })

/-- The runway and move rows that tell an event, before what ends every command (`finish`) settles, leave memory, the
port, the beds, the mixes, the gate, the roster, the loops and the Directory Unit. The group of a HOOKED or UNHOOKED report
is formed in that settling, and the departure of a HOOKED piece changes its bed there (R18, R163;
HookedAndUnhookedMoveThePiece). In a calm part ARM, INTAKE, ABORT and REDIRECT leave the beds, the mixes, the gate, the
roster and the loops, INTAKE changes no more of the moves than the intake, and REDIRECT leaves cranes and stock. -/
def Obligations.RunwayAndMoveRowsLeaveTheRest : Prop :=
  (∀ (c : Fin 2) (p : Permit) (on : Bool) (dir : Direction) (edge : Option Direction) (samples : List Bool) (r : CabReport)
    (x : Instr) (s : State),
    x ∈ [.countEdge c dir, .illegalTransition c, .indexMarker c edge, .feedbackChange c p on, .offTimerExpiry c p, .cabStop c on,
      .yardStop on, .blockTimerExpiry c p, .moveStart c, .waitTimerExpiry c, .travelTimerExpiry c, .cabBlock c samples,
      .status c r, .arrived c r, .hooked c r, .lifted c r, .landed c r, .unhooked c r, .cannot c r, .quietTimerExpiry c,
      .lostTimerExpiry c, .cabReady c on, .shifterFree c, .moveResume c] →
    ∃ u, exec x s = .next (finish u) ∧
      u = { s with cranes := u.cranes, moves := u.moves, stock := u.stock, yardStop := u.yardStop, notices := u.notices,
                   path := u.path } ∧
      (∀ n, (u.piece? n).map (·.state) = (s.piece? n).map (·.state))) ∧
  (∀ (k : Fin 2) (n : Nat) (i : Fin 16) (c : Instr) (r : Region) (index offset addr : Nat) (s t : State),
    c ∈ [.arm k, .intake n, .abort i] → requestWords c = some (r, index, offset, 1) → s.Calm → s.WordLies r index offset addr →
    exec c s = .next t →
    t.beds = s.beds ∧ t.mixes = s.mixes ∧ t.freeCount = s.freeCount ∧ t.steam = s.steam ∧ t.roster = s.roster ∧ t.loops = s.loops ∧
    t.dir = { s.dir with attn := t.dir.attn } ∧
    (c = .intake n → t.cranes = s.cranes ∧ t.stock = s.stock ∧ t.moves = { s.moves with intake := t.moves.intake })) ∧
  (∀ (i : Fin 16) (dest : Word) (addr : Nat) (s t : State), s.Calm → s.WordLies .moveTable i.val 13 addr →
    locate s.path.windows (addr + 1) = some ⟨.moveTable, i.val, 14⟩ → addr + 1 < 4194304 → exec (.redirect i dest) s = .next t →
    t.beds = s.beds ∧ t.mixes = s.mixes ∧ t.freeCount = s.freeCount ∧ t.steam = s.steam ∧ t.roster = s.roster ∧ t.loops = s.loops ∧
    t.cranes = s.cranes ∧ t.stock = s.stock ∧ t.dir = { s.dir with attn := t.dir.attn })

/-! ### Lifecycle (chapter 10) -/

/-- POWER_ON_RESET (R183), with the power-on values each owner's chapter gives (R1, R26, R28, R32, R38, R42, R50, R73, R96,
R110, R131, R151, R174), and the directory read that LOADING begins with under way at the port (R184). The levels of the
inputs stay as they are (the model's choice, log entry 5), the arm results are NONE (the model's choice, log entry 6), and
works memory keeps its contents, also where a write at the memory port is abandoned (the model's choice, log entry 68). -/
def Obligations.PowerOnResetSetsThePowerOnValues : Prop :=
  ∀ (straps : Fin 8) (s : State), ∃ t, exec (.powerOnReset straps) s = .next t ∧
    t.dir.base = straps.val * 524288 ∧ t.dir.lifecycle = .loading ∧
    t.dir.loadCode = .none ∧ t.dir.loadRegion = 0 ∧ t.dir.loadIndex = 0 ∧ t.dir.safeCause = .none ∧
    t.dir.restartPending = false ∧ t.dir.worksTime = 0 ∧ t.dir.writeBack = 0 ∧ t.dir.attn = true ∧
    t.host = ⟨none, [], []⟩ ∧ t.path.fault = none ∧ t.path.refusal = ⟨0, .none, 0⟩ ∧
    t.path.windows = [⟨.directory, straps.val * 524288, 64, 64⟩] ∧ t.path.known = false ∧
    t.path.queue = [] ∧ t.path.slotWait = [] ∧ t.path.lastServed = .own ∧
    t.path.answered = [] ∧ t.path.returned = [] ∧ t.path.outbox = [] ∧ t.path.kept = [] ∧
    t.path.port = .own (.read .directory 0 16) ∧ t.path.current =
      some ⟨.read ⟨.directory, .directory, 0, 64⟩, [.read .directory 16 16, .read .directory 32 16, .read .directory 48 16], []⟩ ∧
    (∀ b, (t.steamBed b).valve = false) ∧ (∀ c, ∀ p ∈ allPermits, permitOf (t.mon c).permits p = false) ∧
    (∀ l, (t.loop l).tx = .released) ∧ (∀ c, (t.cab c).slot = none ∧ (t.cab c).shifter = none) ∧
    t.mem = s.mem ∧
    (∀ b, t.bedUnit b = ⟨.empty, 0, 0, [], none, []⟩ ∧ t.cureUnit b = ⟨0, 0, false, 0, .empty, none, .none⟩ ∧
      t.steamBed b = ⟨0, 0, 0, false, 0, true, 0, true, false⟩) ∧
    (∀ n, 1 ≤ n → n ≤ 16 → t.mix n = ⟨0, 0, 0, 0, 0, 0⟩) ∧ t.freeCount = 0 ∧
    t.steam = ⟨.a, [], 0, 0, false, false, false, 1, 0, s.steam.lowFire⟩ ∧
    t.roster = [] ∧ (∀ l, (t.loop l).line = .idleWaiting ∧ (t.loop l).poll = none ∧ (t.loop l).pointer = none ∧
      (t.loop l).slotPending = false ∧ (t.loop l).rx.mode = .lookForStart ∧
      (t.loop l).lowTimer = 0 ∧ (t.loop l).highTimer = 0 ∧ (t.loop l).breakTimer = 0) ∧
    t.stock = ⟨[], [], []⟩ ∧ t.yardStop = s.yardStop ∧
    (∀ c, let m := t.mon c
      m.zoneWidth = 0 ∧ m.origin = 0 ∧ m.indexRef = 0 ∧ m.deadTime = 0 ∧
      m.count = 0 ∧ m.homed = false ∧ m.homingArmed = false ∧ m.indexSeen = false ∧ m.detecting = false ∧ m.posZone = none ∧
      m.span = none ∧ m.armed = false ∧ m.phase = .idle ∧ m.targets = [] ∧ m.request = none ∧ m.latched = [] ∧
      m.blockTimers = ⟨0, 0, 0, 0⟩ ∧ m.offTimers = ⟨0, 0, 0, 0⟩ ∧ m.armResult = .none ∧
      m.feedback = (s.mon c).feedback ∧ m.cabStop = (s.mon c).cabStop) ∧
    (∀ c, let x := t.cab c
      x.queue = [] ∧ x.armed = false ∧ x.homed = false ∧ x.posZone = none ∧ x.span = none ∧ x.sequence = false ∧
      x.link = .quiet ∧ x.quietTimer = 0 ∧ x.lostTimer = 0 ∧ x.lostRuns = false ∧ x.rx.mode = .lookForStart ∧ x.block = [] ∧
      x.reports = [] ∧ x.blockedMark = false ∧ x.cabReady = (s.cab c).cabReady) ∧
    (∀ i, (t.move i).state = .empty ∧ (t.move i).accepted = false ∧ (t.move i).ctrl = none) ∧
    t.moves.ringSize = 0 ∧ t.moves.nextIndex = 0 ∧ t.moves.serial = 0 ∧ t.moves.intake = none ∧ t.moves.endChain = [] ∧
    t.notices = ⟨0, 0, 0, 0, [], false, [], false⟩

/-- The regions a directory names, in the order of their base words: the offset of the base, the base, and the words it
takes (R184, R190). -/
def directoryRegions (d : List Word) : List (Nat × Nat × Nat) :=
  let w (o : Nat) : Nat := (d.getD o 0).toNat
  [(5, w 5, 40), (6, w 6, 1920), (7, w 7, 128), (8, w 8, 12 * w 9), (10, w 10, 20 * w 11), (12, w 12, 16 * w 13),
   (14, w 14, 65), (15, w 15, 65), (16, w 16, 8 * w 17), (18, w 18, 256), (19, w 19, 4 * w 20)]

/-- Whether the count or figure at an offset of a directory lies outside its range (R184). -/
def figureFails (d : List Word) (o : Nat) : Bool :=
  let w (o : Nat) : Nat := (d.getD o 0).toNat
  decide (o = 2 ∧ (w 2 < 8 ∨ 64 < w 2) ∨ o = 3 ∧ w 2 ≤ w 3 ∨ o = 4 ∧ (w 4 < 1 ∨ 4000 < w 4) ∨
    o = 9 ∧ (w 9 < 32 ∨ 256 < w 9) ∨ o = 11 ∧ (w 11 < 1 ∨ 128 < w 11) ∨ o = 13 ∧ 64 < w 13 ∨
    o = 17 ∧ w 17 ∉ [8, 16, 32, 64] ∨ o = 20 ∧ w 20 ∉ [16, 32, 64, 128, 256])

/-- Whether the RANGE check of a directory fails at an offset (R184): a figure outside its range, or the base of a region
that ends above the last word of memory, by its count as it stands (log entry 13). -/
def rangeFails (d : List Word) (o : Nat) : Bool :=
  figureFails d o || (directoryRegions d).any (fun (offset, base, size) => decide (offset = o ∧ 4194304 < base + size))

/-- Whether two runs of words share a word. -/
def wordsShared (a n b m : Nat) : Bool := decide (0 < n ∧ 0 < m ∧ a < b + m ∧ b < a + n)

/-- DIRECTORY_READ_DONE (R184, R26, R185, R108): a directory without fault gives the region windows, the works time, the
figures and the load reads, one of each region that is loaded (of the two gate lists, the copy that it names); a faulty or
unread one ends loading in SAFE with its result. The checks of the directory in their order (R184): the identity, the
revision, the ranges in offset order, and the first region that shares a word with the directory or with a region before
it. That the end of a region whose count is out of its range is checked with that count is the model's reading (log entry
13), and the order in which the load reads are asked for its choice (log entry 67). -/
def Obligations.DirectoryReadDoneTakesOrRefusesTheDirectory : Prop :=
  (∀ (s : State) (rd : OwnRead) (data : Option (List Word)) (k : Nat) (rest : List ReturnedRead),
    s.dir.lifecycle = .loading → s.path.returned = ⟨rd, data, k⟩ :: rest → rd.purpose = .directory →
    ∃ u, exec .directoryReadDone s = .next (finish u) ∧ u.dir.counting = true ∧ u.dir.takeTime = false ∧
      match data with
      | none => u.dir.lifecycle = .safe ∧ u.dir.safeCause = .load ∧ u.dir.loadCode = .memory ∧
          u.dir.loadRegion = 0 ∧ u.dir.loadIndex = 0
      | some d =>
        match directoryFault s.dir.base d with
        | some (code, index) => u.dir.lifecycle = .safe ∧ u.dir.safeCause = .load ∧ u.dir.loadCode = code ∧
            u.dir.loadRegion = 0 ∧ u.dir.loadIndex = index
        | none =>
          let w (o : Nat) : Nat := (d.getD o 0).toNat
          u.dir.lifecycle = .loading ∧
            u.dir.worksTime = (if s.dir.takeTime = true then d.getD 22 0 else s.dir.worksTime) ∧
            u.dir.zones = w 2 ∧ u.dir.bayZone = w 3 ∧ u.dir.budget = w 4 ∧ u.dir.pieceCap = w 9 ∧ u.dir.slotCount = w 11 ∧
            u.dir.rosterCount = w 13 ∧ u.path.known = true ∧
            u.path.windows = [⟨.directory, s.dir.base, 64, 64⟩, ⟨.crane, w 5, 40, 20⟩, ⟨.bed, w 6, 1920, 80⟩, ⟨.mix, w 7, 128, 8⟩,
              ⟨.piece, w 8, 12 * w 9, 12⟩, ⟨.slot, w 10, 20 * w 11, 20⟩, ⟨.roster, w 12, 16 * w 13, 16⟩, ⟨.gateA, w 14, 65, 65⟩,
              ⟨.gateB, w 15, 65, 65⟩, ⟨.moveRing, w 16, 8 * w 17, 8⟩, ⟨.moveTable, w 18, 256, 16⟩, ⟨.noticeRing, w 19, 4 * w 20, 4⟩] ∧
            u.load.phase = .regions ∧
            u.load.awaited = [.mix, .bed] ++ (if w 13 = 0 then [] else [.roster]) ++
              [.piece, .slot, .crane, .moveTable, .moveRing] ++ (if w 31 = 0 then [.gateA] else if w 31 = 1 then [.gateB] else []) ∧
            ∀ r ∈ u.load.awaited, ∀ x ∈ u.path.windows, x.region = r → .read ⟨.load r, r, 0, x.size⟩ ∈ u.path.queue) ∧
  (∀ (base : Nat) (d : List Word),
    let clashes (i : Nat) : Bool :=
      ((directoryRegions d)[i]?).any (fun (_, first, size) => wordsShared first size base 64 ||
        ((directoryRegions d).take i).any (fun (_, before, length) => wordsShared first size before length))
    directoryFault base d =
      if d.getD 0 0 ≠ 0x4A580018#32 then some (.noDirectory, 0)
      else if d.getD 1 0 ≠ 3#32 then some (.badRevision, 1)
      else
        match (List.range 21).find? (rangeFails d) with
        | some o => some (.range, o)
        | none => ((List.range 11).find? clashes).bind (fun i => ((directoryRegions d)[i]?).map (fun r => (.overlap, r.1))))

/-! ### What the blocks refuse (R22, R70, R93, R108, R129, R149, R172, R181)

Records are counted from 0: piece n, slot n and mix n are record n − 1. A record that breaks any check of its table is
named, the first in order of those that do. -/

/-- The first of some records of a region that fails a check, as a load result names it. -/
def firstBad (r : Region) (count : Nat) (fails : Nat → Bool) : Option (Nat × Nat) :=
  ((List.range count).find? fails).map (fun i => (r.code, i))

/-- A word of a loaded record, signed. -/
def signedAt (s : State) (r : Region) (i o : Nat) : Int := (s.loadWord r i o).toInt

/-- Whether a number lies outside a range. -/
def outside (low high v : Int) : Bool := decide (v < low ∨ high < v)

/-- The piece records that a loaded bed counts as its own: IN_BED, with this origin bed. -/
def bedPieces (s : State) (b : Nat) : List Nat :=
  (List.range s.dir.pieceCap).filter (fun k => decide (s.loadNat .piece k 0 = 1 ∧ s.loadNat .piece k 1 % 256 = b + 1))

/-- Mix fields (R22, R20). -/
def mixFails (s : State) (i : Nat) : Bool :=
  let n := s.loadNat .mix i
  outside (-200) 100 (signedAt s .mix i 0) || decide (n 1 < 1 ∨ n 2 < n 1 ∨ n 3 < n 2) || outside 500 800 (signedAt s .mix i 4)

/-- The plan fields of a bed record and its request word (R22, R2, R190). -/
def bedPlanFails (s : State) (b : Nat) : Bool :=
  let n := s.loadNat .bed b
  outside 1 16 (n 0) || outside 1 12 (n 1) ||
  (List.range 12).any (fun k => decide (64 ≤ n (k + 2) % 256 ∨ s.dir.zones ≤ n (k + 2) % 256) || outside 1 15 (n (k + 2) / 256 % 256)) ||
  outside 1 400 (n 14) || decide (7 < n 15) || outside 1 4 (n 16) || decide (9 < n 17)

/-- The checks of a bed record (R22). -/
def bedFails (s : State) (b : Nat) : Bool :=
  let n := s.loadNat .bed b
  let pieces := bedPieces s b
  let place (k : Nat) : Nat := s.loadNat .piece k 1 / 256 % 256
  bedPlanFails s b || decide (6 < n 18) || decide (n 28 ≠ pieces.length) ||
  !decide (pieces.map place).Nodup || pieces.any (fun k => decide (n 1 < place k)) ||
  decide (n 18 ≤ 1 ∧ pieces ≠ []) || decide (n 18 = 6 ∧ n 28 = 0) ||
  pieces.any (fun k => decide (s.loadNat .piece k 2 / 256 % 256 ≠ n 0))

/-- The checks of a bed in CURING (R93); the profile test is that of R76. -/
def cureFails (s : State) (b : Fin 24) : Bool :=
  let n := s.loadNat .bed b.val
  let segment := n 20 % 256
  decide ((s.bedUnit b).state = .curing) &&
  (decide (profileTest (activeProfile (s.loadRecord .bed b.val)) ≠ .none) || decide (3 < n 19) ||
   decide (segment < 1 ∨ n 32 < segment ∨ 1 < n 20 / 256 % 256) || outside (-400) 700 (signedAt s .bed b.val 21) ||
   decide (n (33 + 2 * segment) % 65536 * 60 + 10 ≤ n 22))

/-- The checks of a roster entry (R70). -/
def rosterFails (s : State) (i : Nat) : Bool :=
  let n := s.loadNat .roster
  let sameLoop := (List.range i).filter (fun j => decide (n j 3 = 1 ∧ n j 0 = n i 0))
  decide (3 < n i 0) || outside 1 30 (n i 1) || decide (25 < n i 2 ∨ 1 < n i 3) || decide (4 < n i 4) ||
  decide (n i 3 = 0 ∧ n i 4 ≠ 0 ∨ n i 3 = 1 ∧ n i 4 = 0) ||
  decide (n i 3 = 1) && (sameLoop.any (fun j => decide (n j 1 = n i 1)) || decide (16 ≤ sameLoop.length)) ||
  outside (-400) 1200 (signedAt s .roster i 6) || outside (-400) 1200 (signedAt s .roster i 7)

/-- The checks of a piece record (R129). -/
def pieceFails (s : State) (k : Nat) : Bool :=
  let n := s.loadNat .piece k
  decide (4 < n 0) ||
  decide (n 0 ≠ 0) && (outside 1 24 (n 1 % 256 : Nat) || outside 1 12 (n 1 / 256 % 256 : Nat) || outside 1 15 (n 2 % 256 : Nat) ||
    outside 1 16 (n 2 / 256 % 256 : Nat) || decide (s.dir.zones ≤ n 5)) ||
  decide (n 0 ≠ 3 ∧ n 6 ≠ 0) || decide (n 0 = 3) && outside 1 s.dir.slotCount (n 6) ||
  decide (n 0 ∈ [0, 4] ∧ n 7 ≠ 0 ∨ n 0 = 2 ∧ n 7 = 0)

/-- The stack of a loaded slot, bottom first. -/
def slotStack (s : State) (i : Nat) : List Nat :=
  (List.range (min (s.loadNat .slot i 3) 6)).map (fun k => s.loadNat .slot i (4 + k))

/-- The claims of a loaded slot, head first (R190). -/
def slotClaims (s : State) (i : Nat) : List Claim :=
  (List.range (min (s.loadNat .slot i 10) 8)).map (fun k =>
    let v := s.loadNat .slot i (11 + k)
    ⟨v % 65536, if v / 2147483648 = 1 then .place else .pick, v / 65536 % 512⟩)

/-- The checks of a slot record (R129); the claim test is that of R120. -/
def slotFails (s : State) (i : Nat) : Bool :=
  let n := s.loadNat .slot i
  let piece (p o : Nat) : Nat := s.loadNat .piece (p - 1) o
  let stack := slotStack s i
  let claims := slotClaims s i
  let unknown (p : Nat) : Bool := decide (p < 1 ∨ s.dir.pieceCap < p)
  let loaded (c : Claim) : Bool := decide (c.op = .place ∧ piece c.piece 0 = 2)
  let naming := (List.range s.dir.pieceCap).filter (fun k => decide (s.loadNat .piece k 0 = 3 ∧ s.loadNat .piece k 6 = i + 1))
  let badStack : Bool := decide (n 1 < n 3) || stack.any unknown || !decide stack.Nodup ||
    (List.range (stack.length - 1)).any (fun k => decide (piece (stack.getD k 0) 2 % 256 < piece (stack.getD (k + 1) 0) 2 % 256))
  let badMember : Bool := stack.any (fun p => decide (piece p 0 ≠ 3 ∨ piece p 6 ≠ i + 1 ∨ piece p 5 ≠ n 0)) ||
    decide (naming.length ≠ n 3)
  let badClaim : Bool := decide (8 < n 10) || !decide (claims.map (·.move)).Nodup ||
    claims.any (fun c => unknown c.piece || decide (piece c.piece 7 ≠ c.move ∨ c.op = .pick ∧ c.piece ∉ stack))
  let badLoaded : Bool := (claims.dropWhile loaded).any loaded ||
    !(claimTest (fun p => piece p 2 % 256) (n 1) ⟨stack.reverse, stack.length⟩ (claims.filter loaded)).passed
  decide (s.dir.zones ≤ n 0 ∨ n 1 < 1 ∨ 6 < n 1 ∨ 1 < n 2) || badStack || badMember || badClaim || badLoaded

/-- Claims and moves (R129): a claim whose move has no entry that is neither EMPTY, DONE nor ABORTED, with the claim's
piece and this slot as its source or destination. -/
def claimsFail (s : State) (i : Nat) : Bool :=
  let n := s.loadNat .moveTable
  (slotClaims s i).any (fun c => (List.range 16).all (fun j =>
    decide (n j 10 ∈ [0, 11, 12] ∨ n j 0 ≠ c.move ∨ n j 3 ≠ c.piece ∨ n j 1 = 3 ∨
      c.op = .pick ∧ (n j 7 ≠ i + 1 ∨ n j 1 = 0) ∨ c.op = .place ∧ n j 4 ≠ i + 1)))

/-- The checks of a crane record (R149). -/
def craneFails (s : State) (c : Nat) : Bool :=
  let n := s.loadNat .crane c
  outside 64 65535 (n 0) || outside (-8388608) 8388607 (signedAt s .crane c 1) || outside (-8388608) 8388607 (signedAt s .crane c 2) ||
  outside 5 100 (n 3) || decide (1 < n 4)

/-- Whether a loaded move table entry is live: a known state that is neither EMPTY, DONE nor ABORTED. -/
def liveEntry (s : State) (j : Nat) : Bool :=
  decide (s.loadNat .moveTable j 10 ≤ 12 ∧ s.loadNat .moveTable j 10 ∉ [0, 11, 12])

/-- Whether a live entry's own piece hangs on the hook for it. -/
def hookedEntry (s : State) (j : Nat) : Bool :=
  let piece := s.loadNat .moveTable j 3
  liveEntry s j && decide (1 ≤ piece ∧ piece ≤ s.dir.pieceCap ∧ s.loadNat .piece (piece - 1) 0 = 2 ∧
    s.loadNat .piece (piece - 1) 7 = s.loadNat .moveTable j 0)

/-- The checks of a move table entry (R172). That a number of an ended entry which a live move has taken again is no
failure of the Load check, and that the later entry is named by the Duplicate and the Crane check, is the model's choice
(log entries 17 and 62). -/
def entryFails (s : State) (j : Nat) : Bool :=
  let n := s.loadNat .moveTable
  let phase := if n j 10 = 10 then n j 11 else n j 10
  let hangs : Bool := (List.range s.dir.pieceCap).any (fun k => decide (s.loadNat .piece k 0 = 2 ∧ s.loadNat .piece k 7 = n j 0))
  let again : Bool := !liveEntry s j && (List.range 16).any (fun k => liveEntry s k && decide (n k 0 = n j 0))
  let mates := (List.range (j + 1)).filter (fun k => liveEntry s k && decide (n k 2 = n j 2))
  decide (12 < n j 10) ||
  decide (n j 10 ≠ 0 ∧ (n j 0 = 0 ∨ 3 < n j 1 ∨ 1 < n j 2 ∨ n j 10 = 10 ∧ n j 11 ∉ [2, 3, 4, 5, 6, 7, 8, 9])) ||
  liveEntry s j && (List.range j).any (fun k => liveEntry s k && decide (n k 0 = n j 0)) ||
  decide (n j 10 ≠ 0 ∧ phase ∈ [1, 3, 4, 9, 11, 12]) && hangs && !again || decide (n j 10 ∈ [5, 6, 7, 8]) && !hookedEntry s j ||
  liveEntry s j && decide (1 < (mates.filter (hookedEntry s)).length ∨ 8 < mates.length)

/-- Hook and Index (R172). -/
def hookFails (s : State) : Bool :=
  (List.range s.dir.pieceCap).any (fun k => decide (s.loadNat .piece k 0 = 2) &&
    (List.range 16).all (fun j => !liveEntry s j || decide (s.loadNat .moveTable j 0 ≠ s.loadNat .piece k 7))) ||
  decide (s.loadNat .directory 0 17 ≤ s.loadNat .directory 0 40)

/-- The alarm state words, each with the index that a bad one is named by (R181). -/
def alarmStateWords (s : State) : List (Region × Nat × Nat × Nat) :=
  (List.range 24).map (fun b => (.bed, b, 70, b)) ++ (List.range s.dir.rosterCount).map (fun i => (.roster, i, 10, i)) ++
  (List.range 2).map (fun c => (.crane, c, 14, c)) ++ (List.range 4).map (fun l => (.directory, 0, 41 + 4 * l, 41 + 4 * l))

/-- What each block's check answers, in the order of R185. -/
abbrev BlocksCheckTheirRecords (s : State) : Prop :=
  s.bedUnitFault = (firstBad .mix 16 (mixFails s)).or (firstBad .bed 24 (bedFails s)) ∧
  firstFault s.cureFault (List.finRange 24) = ((List.finRange 24).find? (cureFails s)).map (fun b => (1, b.val)) ∧
  firstFault s.rosterFault (countFrom 0 s.dir.rosterCount) = firstBad .roster s.dir.rosterCount (rosterFails s) ∧
  s.stockFault = ((firstBad .piece s.dir.pieceCap (pieceFails s)).or (firstBad .slot s.dir.slotCount (slotFails s))).or
    (firstBad .slot s.dir.slotCount (claimsFail s)) ∧
  firstFault s.craneRecordFault (List.finRange 2) = firstBad .crane 2 (craneFails s) ∧
  s.moveFault = (firstBad .moveTable 16 (entryFails s)).or (if hookFails s = true then some (9, 0) else none) ∧
  (let letter := s.loadNat .directory 0 31
   s.gateFault =
     if letter = 0 ∧ gateTest (s.loaded .gateA) = .none ∨ letter = 1 ∧ gateTest (s.loaded .gateB) = .none then none
     else some (7, letter)) ∧
  (let size := s.loadNat .directory 0 20
   s.noticeFault =
     if size ≤ s.loadNat .directory 0 26 then some (0, 26) else if size ≤ s.loadNat .directory 0 25 then some (0, 25)
     else ((alarmStateWords s).find? (fun (r, i, o, _) => decide (3 < s.loadNat r i o))).map (fun (r, _, _, k) => (r.code, k)))

/-- The blocks that check and build, in the order of R185: Bed Unit, Curing Controller, Probe Loop Controller, Stock Unit,
Runway Monitor, Move Controller, Steam Allocator, Notice Unit. -/
def blocksInOrder : List LoadBlock :=
  [{ check := State.bedUnitFault, build := buildBedUnit },
   { check := fun s => firstFault s.cureFault (List.finRange 24), build := forBeds buildCure },
   { check := fun s => firstFault s.rosterFault (countFrom 0 s.dir.rosterCount), build := buildProbes },
   { check := State.stockFault, build := buildStock },
   { check := fun s => firstFault s.craneRecordFault (List.finRange 2), build := buildCranes },
   { check := State.moveFault, build := buildMoves },
   { check := State.gateFault, build := buildSteam },
   { check := State.noticeFault, build := buildNotices }]

/-! What each block's build sets (R22, R94, R71, R130, R149, R172, R108, R181), on the words `s` has loaded: `u` stands as
all eight builds leave it. -/

/-- Whether a refresh that waits carries a value for a word of a record. -/
def refreshes (u : State) (r : Region) (i o : Nat) (v : Word) : Bool :=
  u.path.queue.any (fun item => match item with
    | .refresh x => decide (x.region = r ∧ x.index = i ∧ wordFor x.words o = some v)
    | _ => false)

/-- The Bed Unit (R22, R1): the copies of its records, in-bed lists in position order, no request, the free count, the mixes
with their use counts; a stale request word is written to NONE. -/
abbrev BedsBuilt (s u : State) : Prop :=
  let pieces := List.range s.dir.pieceCap
  let place (k : Nat) : Nat := s.loadNat .piece (k - 1) 1 / 256 % 256
  (∀ b : Fin 24, let n := s.loadNat .bed b.val
    let x := u.bedUnit b
    x.state.toNat = n 18 ∧ x.mix = n 0 ∧ x.pieceCount = n 1 ∧ x.request = none ∧ x.deferred = [] ∧
    x.inBed.Perm ((bedPieces s b.val).map (· + 1)) ∧ (x.inBed.map place).Pairwise (· ≤ ·) ∧
    (n 17 ≠ 0 → refreshes u .bed b.val 17 0 = true)) ∧
  (∀ m : Fin 16, let w := s.loadWord .mix m.val
    u.mix (m.val + 1) = ⟨(w 0).toInt, (w 1).toNat, (w 2).toNat, (w 3).toNat, (w 4).toInt,
      ((List.range 24).filter (fun b => decide (s.loadNat .bed b 18 ≠ 0 ∧ s.loadNat .bed b 0 = m.val + 1))).length +
      (pieces.filter (fun k => decide (s.loadNat .piece k 0 ≠ 0 ∧ s.loadNat .piece k 2 / 256 % 256 = m.val + 1))).length⟩) ∧
  u.freeCount = (pieces.filter (fun k => decide (s.loadNat .piece k 0 = 0))).length

/-- The Curing Controller (R94): a resumed cure is BLIND, or HELD where the record says so, and its sub-state is written; a
TAKE word is written to NONE. -/
abbrev CuresBuilt (s u : State) : Prop :=
  ∀ b : Fin 24, let w := s.loadWord .bed b.val
    let x := u.cureUnit b
    x.core = (w 23).toInt ∧ x.air = (w 24).toInt ∧ x.maturity = (w 25).toNat ∧ x.sighted = false ∧ x.take = .none ∧
    x.bedState = (u.bedUnit b).state ∧ (w 52 = 1 → refreshes u .bed b.val 52 0 = true) ∧
    match x.context with
    | none => x.bedState ≠ .curing
    | some c => x.bedState = .curing ∧ c.held = decide ((w 19).toNat = 1) ∧ c.blind = true ∧ c.overheat = false ∧
        c.sub = (if (w 19).toNat = 1 then .held else .blind) ∧ c.segment = (w 20).toNat % 256 ∧
        c.phase.toNat = (w 20).toNat / 256 % 256 ∧ c.setpoint = (w 21).toInt ∧ c.holdDone = (w 22).toNat ∧ c.ramp = 0 ∧
        c.duty = 0 ∧ c.ended = false ∧ c.profile = activeProfile (s.loadRecord .bed b.val) ∧
        ((w 19).toNat ≠ c.sub.toNat → refreshes u .bed b.val 19 (.ofCount c.sub.toNat) = true)

/-- The Probe Loop Controller (R71): enable OFF is OFFLINE and ON is SUSPECT, with no miss, no good reading and no outcome; an
entry that differs is written; the loops stand as before. The counts of an OFF entry are the model's choice (log entry 43). -/
abbrev ProbesBuilt (s u : State) : Prop :=
  u.rosterLoaded = true ∧ u.roster.length = s.dir.rosterCount ∧ (∀ l, u.loop l = { s.loop l with alarm := (u.loop l).alarm }) ∧
  ∀ i, i < s.dir.rosterCount → let w := s.loadWord .roster i
    match u.roster[i]? with
    | none => False
    | some e => e.loop = (w 0).toNat ∧ e.address = (w 1).toNat ∧ Assignment.ofNat? (w 2).toNat = some e.assignment ∧
        e.state = (if w 3 = 1 then .suspect else .offline) ∧ e.miss = 0 ∧ e.good = 0 ∧ e.core = (w 6).toInt ∧
        e.air = (w 7).toInt ∧ e.readingTime = w 8 ∧ e.outcome = .none ∧
        ((w 4).toNat ≠ e.state.toNat → refreshes u .roster i 4 (.ofCount e.state.toNat) = true) ∧
        (w 5 ≠ 0 → refreshes u .roster i 5 0 = true) ∧ (w 9 ≠ 0 → refreshes u .roster i 9 0 = true)

/-- The Stock Unit (R130, R172): pieces and slots as their records have them, but for the claims of the moves without load,
which are released; a piece past its dispatch threshold is ready; a stale request word is written to NONE. -/
abbrev StockBuilt (s u : State) : Prop :=
  u.stock.pieces.length = s.dir.pieceCap ∧ u.stock.slots.length = s.dir.slotCount ∧
  u.stock.dispatched = ((List.range s.dir.pieceCap).filter (fun k => decide (s.loadNat .piece k 0 = 4))).map (· + 1) ∧
  (∀ k, k < s.dir.pieceCap → let n := s.loadNat .piece k
    match u.piece? (k + 1) with
    | none => False
    | some p => p.state.toNat = n 0 ∧ p.bed = n 1 % 256 ∧ p.position = n 1 / 256 % 256 ∧ p.length = n 2 % 256 ∧
        p.mix = n 2 / 256 % 256 ∧ p.zone = n 5 ∧ p.slot = n 6 ∧ p.maturity = n 4 ∧ p.request = none ∧
        (n 0 ≠ 0 → p.hold = s.loadWord .piece k 8 ∧ p.ready = decide (s.loadNat .mix (p.mix - 1) 3 ≤ n 4)) ∧
        (n 0 = 0 → p.ready = false) ∧ (p.claim = n 7 ∨ p.claim = 0) ∧
        (∀ j, j < 16 → liveEntry s j = true → hookedEntry s j = false → s.loadNat .moveTable j 1 ≠ 3 →
          s.loadNat .moveTable j 3 = k + 1 → p.claim ≠ s.loadNat .moveTable j 0) ∧
        (n 9 ≠ 0 → refreshes u .piece k 9 0 = true)) ∧
  (∀ i, i < s.dir.slotCount → let n := s.loadNat .slot i
    match u.slot? (i + 1) with
    | none => False
    | some x => x.zone = n 0 ∧ x.maxHeight = n 1 ∧ x.isOpen = decide (n 2 = 0) ∧ x.stack = slotStack s i ∧
        ∀ c ∈ x.claims, c ∈ slotClaims s i ∧ ∀ j, j < 16 → liveEntry s j = true → s.loadNat .moveTable j 1 ≠ 3 →
          s.loadNat .moveTable j 0 = c.move → hookedEntry s j = true)

/-- The Runway Monitor (R149): the plan, an UNARMED and unhomed crane with an empty span, no permit, no latched fault and no
request, whose count runs on; every live word it owns is written. Its phase is that of the move resumed for it. -/
abbrev CranesBuilt (s u : State) : Prop :=
  u.cranesLoaded = true ∧ ∀ c : Fin 2, let w := s.loadWord .crane c.val
    let m := u.mon c
    m.zoneWidth = (w 0).toNat ∧ m.origin = (w 1).toInt ∧ m.indexRef = (w 2).toInt ∧ m.deadTime = (w 3).toNat ∧
    m.count = (s.mon c).count ∧ m.armed = false ∧ m.homed = false ∧ m.posZone = none ∧ m.span = none ∧
    m.permits = ⟨false, false, false, false⟩ ∧ m.request = none ∧ m.latched = [] ∧ m.armResult = .none ∧
    m.homingArmed = false ∧ m.detecting = false ∧ m.phase = (if (u.cab c).queue = [] then .idle else .move .suspended) ∧
    ∀ x ∈ [(5, (0 : Word)), (6, 0), (7, .ofSigned m.count), (8, 0x80000000), (9, 0x80000000), (10, 0), (11, 0)],
      refreshes u .crane c.val x.1 x.2 = true

/-- The Move Controller (R172): the ring, and the counter one above the highest serial; a loaded move is SUSPENDED with its
phase and alone in its queue, a live move without load is ABORTED with RESTART; QUIET links with nothing to send; a ring
entry posted is cleared. That serials of EMPTY entries do not count is the model's choice (log entry 63). -/
abbrev MovesBuilt (s u : State) : Prop :=
  let used := (List.range 16).filter (fun j => decide (s.loadNat .moveTable j 10 ≠ 0))
  u.moves.ringSize = s.loadNat .directory 0 17 ∧ u.moves.nextIndex = s.loadNat .directory 0 40 ∧
  u.moves.serial = (used.map (fun j => s.loadNat .moveTable j 9)).foldl max 0 + 1 ∧
  (∀ i : Fin 16, let n := s.loadNat .moveTable i.val
    let m := u.move i
    m.number = n 0 ∧ m.piece = n 3 ∧ m.dest = n 4 ∧ m.waitLimit = n 5 ∧ m.travelLimit = n 6 ∧ m.source = n 7 ∧
    m.serial = n 9 ∧ (n 10 ≠ 0 → m.kind.toNat = n 1 ∧ m.crane.val = n 2) ∧ m.ctrl = none ∧
    (if hookedEntry s i.val = true then m.state = .suspended ∧ m.accepted = true ∧
        m.remembered.map MoveState.toNat = some (if n 10 = 10 then n 11 else n 10) ∧ (u.cab m.crane).queue = [m.number]
      else if liveEntry s i.val = true then m.state = .aborted ∧ m.endReason = .restart
      else m.state.toNat = n 10)) ∧
  (∀ c : Fin 2, let x := u.cab c
    x.link = .quiet ∧ x.quietTimer = 0 ∧ x.lostTimer = 0 ∧ x.slot = none ∧ x.shifter = none ∧ x.sequence = false ∧
    ((∀ i : Fin 16, hookedEntry s i.val = true → s.loadNat .moveTable i.val 2 ≠ c.val) → x.queue = []) ∧
    refreshes u .crane c.val 12 0 = true ∧ refreshes u .crane c.val 13 (.ofCount (x.queue.headD 0)) = true) ∧
  ∀ k, k < s.loadNat .directory 0 17 → s.loadNat .moveRing k 7 = 1 → refreshes u .moveRing k 7 0 = true

/-- The Steam Allocator (R108): the active copy's entries from the first on, no swap, the first rotation and valve step, each
bed's rating and priority with nothing granted; the entry index and swap state, and a granted duty that stood, are written. -/
abbrev SteamBuilt (s u : State) : Prop :=
  let active : GateCopy := if s.loadNat .directory 0 31 = 0 then .a else .b
  let entries := gateEntries (s.loaded (if active = .a then .gateA else .gateB))
  u.steam = ⟨active, entries, if entries = [] then 0 else 1, (entries.head?.map (·.duration)).getD 0,
    false, false, false, 1, 0, s.steam.lowFire⟩ ∧
  refreshes u .directory 0 32 (.ofCount u.steam.index) = true ∧ refreshes u .directory 0 33 0 = true ∧
  ∀ b : Fin 24, let n := s.loadNat .bed b.val
    u.steamBed b = ⟨n 14, n 15, 0, false, 0, true, 0, true, false⟩ ∧ (n 27 ≠ 0 → refreshes u .bed b.val 27 0 = true)

/-- The Notice Unit (R181): the ring from the directory, no notice posted by the load, and every alarm block with its state
and raise time and an empty condition set, an ACKED one CLEAR; a block that differs is written. -/
abbrev NoticesBuilt (s u : State) : Prop :=
  u.notices = ⟨s.loadNat .directory 0 20, s.loadNat .directory 0 26, s.loadNat .directory 0 26, s.loadNat .directory 0 25,
    [], false, s.notices.waiting, true⟩ ∧
  ∀ r ∈ (List.finRange 24).map AlarmRef.bed ++ (List.range s.dir.rosterCount).map .probe ++ (List.finRange 2).map .crane ++
      (List.finRange 4).map .loop,
    let p := alarmPlace r
    let w (k : Nat) : Word := s.loadWord p.region p.index (p.offset + k)
    (u.alarm r).state.toNat = (if w 0 = 3 then 0 else (w 0).toNat) ∧ (u.alarm r).conditions = 0 ∧ (u.alarm r).raiseTime = w 2 ∧
    (w 0 = 3 → refreshes u p.region p.index p.offset 0 = true) ∧
    (w 1 ≠ 0 → refreshes u p.region p.index (p.offset + 1) 0 = true)

/-- LOAD_READS_DONE (R185): the eight blocks check and build in their order, Bed Unit, Curing Controller, Probe Loop
Controller, Stock Unit, Runway Monitor, Move Controller, Steam Allocator, Notice Unit; the first bad record ends loading in
SAFE, and with none every block stands as the builds of all eight leave it, the alarm blocks among them (R181). What each
block's check refuses, and the first record it names, is that of R22, R93, R70, R129, R149, R172, R108 and R181. Which record
a check names where several fail is in part the model's choice (log entries 17, 59, 62, 64, 65 and 70). What the builds set, and
the words they write, is that of R22, R94, R71, R130, R149, R172, R108 and R181, with the directory read and its regions known.
Two of those values are the model's choice: the counts of a roster entry with enable OFF (log entry 43), and that the serial
of an EMPTY entry does not count (log entry 63). That load writes are refreshes is the model's reading (DEDUCED, log entry 24).
LOADING_END (R185, R71): every block built and every write of loading done, the part is RUNNING, and the loops are
started. -/
def Obligations.LoadingBuildsInOrderAndEndsInRunning : Prop :=
  (∀ s : State, BlocksCheckTheirRecords s) ∧
  (∀ s : State, s.dir.lifecycle = .loading → s.load.phase = .regions → s.load.awaited = [] →
     let built (k : Nat) : State := (blocksInOrder.take k).foldl (fun s x => x.build s) s
     ((∀ k (h : k < blocksInOrder.length), blocksInOrder[k].check (built k) = none) →
       ∃ u, exec .loadReadsDone s = .next (finish u) ∧ u.load = ⟨.building, [], []⟩ ∧ u.dir = s.dir ∧
         u.rosterLoaded = true ∧ u.cranesLoaded = true ∧ u.beds = (built 8).beds ∧ u.mixes = (built 8).mixes ∧
         u.freeCount = (built 8).freeCount ∧ u.steam = (built 8).steam ∧ u.roster = (built 8).roster ∧
         u.stock = (built 8).stock ∧ u.cranes = (built 8).cranes ∧ u.moves = (built 8).moves ∧
         u.notices = (built 8).notices ∧ u.notices.alarmsBuilt = true ∧ u.notices.size = s.loadNat .directory 0 20 ∧
         u.notices.tail = s.loadNat .directory 0 25 ∧ u.notices.writtenHead = s.loadNat .directory 0 26 ∧ u.mem = s.mem ∧
         (s.dir.dirRead = true → (∀ r, (s.window? r).isSome = true) →
           BedsBuilt s u ∧ CuresBuilt s u ∧ ProbesBuilt s u ∧ StockBuilt s u ∧ CranesBuilt s u ∧ MovesBuilt s u ∧
           SteamBuilt s u ∧ NoticesBuilt s u)) ∧
     (∀ k (h : k < blocksInOrder.length) (code index : Nat),
       (∀ j (hj : j < k), blocksInOrder[j].check (built j) = none) → blocksInOrder[k].check (built k) = some (code, index) →
       ∃ t, exec .loadReadsDone s = .next t ∧ t.dir.lifecycle = .safe ∧ t.dir.safeCause = .load ∧
         t.dir.loadCode = .badRecord ∧ t.dir.loadRegion = code ∧ t.dir.loadIndex = index)) ∧
  (∀ s : State, s.dir.lifecycle = .loading → s.loadComplete = true →
     ∃ t, exec .loadingEnd s = .next t ∧ t.dir.lifecycle = .running ∧ t.dir.loadCode = .clean ∧
       t.dir.safeCause = .none ∧ t.load = ⟨.idle, [], []⟩ ∧ t.mem = s.mem ∧
       (∀ l, s.rosterLoaded = true → (s.loop l).line = .idleWaiting →
         t.loop l = { s.loop l with line := .idleSending, tx := .startSequence }))

/-- Crane `c` has the move of table entry `i` as its active move, and the other crane does not (R155: a move stays in
exactly one queue). -/
abbrev ActiveIs (s : State) (c : Fin 2) (i : Fin 16) : Prop :=
  s.activeMove c = some i ∧ (s.move i).crane = c ∧ s.activeMove (otherCrane c) ≠ some i

/-- SAFE in a calm part (R187), the host write of SAFE to the control word (R186), whose code 2 is read from R190 (DEDUCED,
log entry 21): with the cause REQUEST, every valve off and the swap gone (R109), every crane UNARMED
(R150), every active move SUSPENDED, and the bed, piece and control requests, the deferred events, the takes and the intake
dropped (R23, R95, R130, R173). SAFE entered for any cause leaves nothing in the queue but refreshes of the directory, and
drops the read of a take and a swap read at whatever stage they are (R48, R95, R109); that any other item under way goes on
is R48's for a commit group, and the model's choice for a refresh and a read (log entry 40). -/
def Obligations.SafeStopsThePart : Prop :=
  (∀ (s : State) (addr : Nat), s.Calm → s.WordLies .directory 0 21 addr →
     ∃ u, exec .safe s = .next (finish u) ∧ u.dir.lifecycle = .safe ∧ u.dir.safeCause = .request ∧
       (∀ b, (u.steamBed b).valve = false ∧ (u.steamBed b).closed = true) ∧
       (∀ c, (u.mon c).armed = false ∧ ∀ p ∈ allPermits, permitOf (u.mon c).permits p = false) ∧
       (∀ b, (u.bedUnit b).request = none ∧ (u.bedUnit b).deferred = [] ∧ (u.cureUnit b).take = .none) ∧
       u.moves.intake = none ∧ u.mem = setWord s.mem addr 2 ∧
       u.steam.swapPending = false ∧ u.steam.swapRead = false ∧ u.steam.cancelled = false ∧
       (∀ c i, ActiveIs s c i → (s.move i).state ∉ [.queued, .suspended] →
         (u.move i).state = .suspended ∧ (u.move i).remembered = some (s.move i).state) ∧
       (∀ i, (u.move i).ctrl = none) ∧ (∀ n p, s.piece? n = some p → u.piece? n = some { p with request := none })) ∧
  (∀ (s : State) (cause : SafeCause), s.dir.lifecycle = .running →
     let dropped (p : ReadFor) : Prop := p = .swap ∨ ∃ b, p = .take b
     let t := enterSafe cause s
     (∀ item ∈ t.path.queue, ∃ x : RefreshSlot, item = .refresh x ∧ x.region = .directory) ∧
     (∀ r, r ∈ t.path.returned ↔ r ∈ s.path.returned ∧ ¬ dropped r.read.purpose) ∧
     (∀ c, t.path.current = some c ↔ s.path.current = some c ∧ ∀ rd, c.item = .read rd → ¬ dropped rd.purpose))

/-- RESTART in a calm part (R188), the host write of RESTART to the control word (R186), whose code 1 is read from R190
(DEDUCED, log entry 21): the restart is pending, and the lifecycle keeps its state. PATH_QUIET (R188): the
part does what power-on reset does, but for the base, the fault record and the works time. -/
def Obligations.RestartWaitsForTheQuietPath : Prop :=
  (∀ (s : State) (addr : Nat), s.Calm → s.WordLies .directory 0 21 addr →
     ∃ t, exec .restart s = .next t ∧ t.dir.restartPending = true ∧ t.dir.lifecycle = .running ∧
       t.mem = setWord s.mem addr 1 ∧ t.host.replies = [⟨.done, []⟩]) ∧
  (∀ s : State, s.quiet = true → ∃ t, exec .pathQuiet s = .next t ∧
     t.dir.base = s.dir.base ∧ t.dir.worksTime = s.dir.worksTime ∧ t.dir.counting = s.dir.counting ∧
     t.path.fault = s.path.fault ∧ t.dir.lifecycle = .loading ∧ t.dir.restartPending = false ∧
     t.dir.loadCode = .none ∧ t.dir.safeCause = .none ∧ t.path.refusal = ⟨0, .none, 0⟩ ∧
     t.path.windows = [⟨.directory, s.dir.base, 64, 64⟩] ∧ t.path.queue = [] ∧ t.path.slotWait = [] ∧
     (∀ b, (t.steamBed b).valve = false) ∧ (∀ c, ∀ p ∈ allPermits, permitOf (t.mon c).permits p = false) ∧
     t.mem = s.mem)

/-! ### The memory path (chapter 2) -/

/-- HOST_TRANSFER_ARRIVES at a free port (R24, R27): too high an address and a WRITE without a byte enabled are
settled at once, and any other transfer waits. At a busy port the transfer stands behind the one there. TAKE_TRANSFER
(R27, R28, R36): a waiting transfer on a held record stays, and so does a WRITE that waits for a slot (R33, R38); a READ
that nothing keeps is taken without judging; a WRITE in RUNNING without a twin is taken with its events, or refused whole.
A WRITE with a twin is taken with a slot reserved for the twin copy, or waits for one (R33). In LOADING a WRITE that
touches a window, or comes before the regions are known, is refused with LOADING, and another is taken (R47). In SAFE a
WRITE is taken unjudged, and hands no more than a RESTART and a memory fault CLEAR (R48). No step leaves a transfer behind
a free port (R24). Four clauses are the model's choice: a WRITE too high in which no byte is enabled is REFUSED (log
entry 37), the address that a LOADING refusal names (log entry 29), a control word in SAFE that keeps its meaning only
when it is written whole (log entry 30), and a WRITE with a twin that waits while a slot is free, where the parties before
it on the slot waiting list take the free ones first (log entry 39). That the examination of R27 is this command is log
entry 69. A READ so taken is issued ahead of the own items that wait, where the own stream was served last (R42; section
2.11, step 9). A READ that covers an alarm state word of which a refresh is unsent stays (R27, R36). The control word's code
1 in SAFE is a RESTART (R186, R190; DEDUCED, log entry 21). No step leaves a transfer taken and not issued behind a free
port, so that one judged before a swap is done before the swap's read (R42, R97). -/
def Obligations.TransferArrivesAndIsTaken : Prop :=
  (∀ (t : HostTransfer) (s : State),
     (s.host.up = none → s.host.backlog = [] →
       ∃ u, exec (.hostTransferArrives t) s = .next (finish u) ∧ u.mem = s.mem ∧
         if 4194304 < t.addr + transferLength t then
           u.host.up = none ∧ u.path.port = s.path.port ∧
           match t.op with
           | .read _ => u.host.replies = [⟨.dataError, []⟩] ∧ u.path.fault = s.path.fault
           | .write _ => u.host.replies = [⟨.refused, []⟩] ∧ u.path.refusal = ⟨t.addr, .range, s.dir.worksTime⟩ ∧
               u.path.fault = s.path.fault
         else
           match t.op with
           | .read _ => u.host.up = some ⟨t, .waiting, false, [], [], false, false⟩
           | .write ws => if ws.all (fun w => decide (w.enables = 0)) = true then
                 u.host.up = none ∧ u.host.replies = [⟨.done, []⟩]
               else u.host.up = some ⟨t, .waiting, false, [], [], false, false⟩) ∧
     (s.host.up.isSome = true →
       ∃ u, exec (.hostTransferArrives t) s = .next (finish u) ∧ u.host = { s.host with backlog := s.host.backlog ++ [t] })) ∧
  (∀ (s : State) (u : UpTransfer), s.host.up = some u → u.stage = .waiting → u.reserved = false → s.host.backlog = [] →
     (s.transferHeld u.xfer = true ∨ .hostWrite ∈ s.path.slotWait → exec .takeTransfer s = .next (finish s)) ∧
     (s.transferHeld u.xfer = false → .hostWrite ∉ s.path.slotWait →
       (∀ n, u.xfer.op = .read n → s.readWaits u.xfer = true → exec .takeTransfer s = .next (finish s)) ∧
       (∀ n, u.xfer.op = .read n → s.readWaits u.xfer = false →
         ∃ v, exec .takeTransfer s = .next (finish v) ∧ v.mem = s.mem ∧
           v.host.up = some { u with stage := .taken, takenLoading := decide (s.dir.lifecycle = .loading) }) ∧
       (s.dir.lifecycle = .running → ∀ ws, u.xfer.op = .write ws →
         (∀ events, s.judge u.xfer.addr ws = .passed [] events →
           ∃ v, exec .takeTransfer s = .next (finish v) ∧ v.mem = s.mem ∧
             v.host.up = some { u with stage := .taken, judged := true, twins := [], events := events }) ∧
         (∀ twins events, s.judge u.xfer.addr ws = .passed twins events → twins ≠ [] →
           if s.slotsUsed + s.path.slotWait.length < 8 then
             ∃ v, exec .takeTransfer s = .next (finish v) ∧ v.mem = s.mem ∧ v.host.up =
               some { u with stage := .taken, judged := true, twins := twins, events := events, reserved := true }
           else ∃ v, exec .takeTransfer s = .next (finish v) ∧ v.mem = s.mem ∧ v.host = s.host ∧
             v.path.slotWait = s.path.slotWait ++ [.hostWrite]) ∧
         (∀ addr reason, s.judge u.xfer.addr ws = .refused addr reason →
           ∃ v, exec .takeTransfer s = .next (finish v) ∧ v.mem = s.mem ∧ v.host = ⟨none, [], [⟨.refused, []⟩]⟩ ∧
             v.path.refusal = ⟨addr, reason, s.dir.worksTime⟩)) ∧
       (s.dir.lifecycle = .loading → ∀ ws, u.xfer.op = .write ws →
         let touched (a : Nat) : Prop := u.xfer.addr ≤ a ∧ a < u.xfer.addr + ws.length ∧ (locate s.path.windows a).isSome = true
         (s.path.known = false → ∃ v, exec .takeTransfer s = .next (finish v) ∧ v.mem = s.mem ∧
           v.host = ⟨none, [], [⟨.refused, []⟩]⟩ ∧ v.path.refusal = ⟨u.xfer.addr, .loading, s.dir.worksTime⟩) ∧
         (s.path.known = true → (∀ a, ¬ touched a) →
           ∃ v, exec .takeTransfer s = .next (finish v) ∧ v.mem = s.mem ∧ v.host.up = some { u with stage := .taken }) ∧
         (s.path.known = true → (∃ a, touched a) → ∃ v a, exec .takeTransfer s = .next (finish v) ∧ v.mem = s.mem ∧
           v.host = ⟨none, [], [⟨.refused, []⟩]⟩ ∧ v.path.refusal = ⟨a, .loading, s.dir.worksTime⟩ ∧ touched a ∧
           (ws.all (fun w => decide (w.enables ≠ 0)) = true → ∀ a', touched a' → a ≤ a'))) ∧
       (s.dir.lifecycle = .safe → ∀ ws, u.xfer.op = .write ws →
         ∃ v events, exec .takeTransfer s = .next (finish v) ∧ v.mem = s.mem ∧
           v.host.up = some { u with stage := .taken, judged := false, twins := [], events := events } ∧
           ∀ e, e ∈ events ↔ ∃ j ∈ judgedWords s.path.windows u.xfer.addr ws, j.place.region = .directory ∧ j.whole = true ∧
             j.value = 1 ∧ (j.place.offset = 21 ∧ e = .lifecycle false ∨ j.place.offset = 24 ∧ e = .faultClear)))) ∧
  (∀ (s : State) (x : HostTransfer), s.readWaits x = true ↔
     ∃ k w r, k < transferLength x ∧ locate s.path.windows (x.addr + k) = some w ∧ alarmAt w = some (r, 0) ∧
       ((∃ slot, .refresh slot ∈ s.path.queue ∧ slot.region = w.region ∧ slot.index = w.index ∧
          (wordFor slot.words w.offset).isSome = true) ∨
        (∃ c, s.path.current = some c ∧ c.item.isGroup = false ∧ ∃ b ∈ c.rest, b.writesWord w = true))) ∧
  (∀ s t : State, (s.host.up = none → s.host.backlog = []) → step s = .next t → t.host.up = none → t.host.backlog = []) ∧
  (∀ (s t : State) (u : UpTransfer), step s = .next t → t.host.up = some u → u.stage = .taken → t.path.port ≠ .free) ∧
  (∀ (s : State) (u : UpTransfer) (n : Nat), s.host.up = some u → u.stage = .waiting → u.xfer.op = .read n →
     s.transferHeld u.xfer = false → .hostWrite ∉ s.path.slotWait → s.readWaits u.xfer = false → s.path.port = .free →
     s.path.lastServed = .own → s.path.outbox = [] → s.path.kept = [] → s.notices.writeList = [] → s.RunwayCalm →
     ∃ t, exec .takeTransfer s = .next t ∧ t.path.port = .host ∧ t.path.lastServed = .host ∧ t.path.queue = s.path.queue ∧
       t.path.current = s.path.current ∧
       t.host.up = some { u with stage := .issued, takenLoading := decide (s.dir.lifecycle = .loading) })

/-- The words that a WRITE finds OPEN (R29, R30): the words a record layout leaves unused (section 10.5), the pending
profile but for the TAKE word and its result (R75), the hold reason (R111), the inactive gate list copy (R97) and the new
destination (R169). -/
def openWord (active : GateCopy) (r : Region) (o : Nat) : Bool :=
  match r with
  | .directory => decide (57 ≤ o)
  | .bed => decide (o ∈ [31, 50, 51] ∨ 54 ≤ o ∧ o ≤ 69 ∨ 74 ≤ o)
  | .mix => decide (5 ≤ o)
  | .piece => decide (o = 8 ∨ o = 11)
  | .slot => decide (o = 19)
  | .roster => decide (14 ≤ o)
  | .crane => decide (18 ≤ o)
  | .gateA => decide (active = .b)
  | .gateB => decide (active = .a)
  | .moveTable => decide (o = 14)
  | .moveRing | .noticeRing => false

/-- The OWNED words (R3, R30, R75, R97, R111, R116, R132, R169, R186, section 9.4): the directory but for its control, heat,
fault clear and tail words and the acknowledge words; the live fields of the records; the active gate list copy; and the
notice ring, whose class is the model's reading (log entry 10). -/
def ownedWord (active : GateCopy) (r : Region) (o : Nat) : Bool :=
  match r with
  | .directory => decide (o ≤ 56 ∧ o ∉ [21, 23, 24, 25, 44, 48, 52, 56])
  | .bed => decide (18 ≤ o ∧ o ≤ 30 ∨ o = 53 ∨ 70 ≤ o ∧ o ≤ 72)
  | .mix | .moveRing => false
  | .piece => decide (o ≤ 7 ∨ o = 10)
  | .slot => decide (3 ≤ o ∧ o ≤ 18)
  | .roster => decide (4 ≤ o ∧ o ≤ 12)
  | .crane => decide (o ≤ 2 ∨ 5 ≤ o ∧ o ≤ 16)
  | .gateA => decide (active = .a)
  | .gateB => decide (active = .b)
  | .moveTable => decide (o ≤ 12 ∨ o = 15)
  | .noticeRing => true

/-- Whether a value lies in the range that section 1.1 gives a plan word of a bed record, with the zone of a piece list
entry below the runway zone count too (R2). -/
def bedPlanFits (zones o : Nat) (v : Word) : Bool :=
  if o = 0 then decide (1 ≤ v.toNat ∧ v.toNat ≤ 16) else if o = 1 then decide (1 ≤ v.toNat ∧ v.toNat ≤ 12)
  else if o = 14 then decide (1 ≤ v.toNat ∧ v.toNat ≤ 400) else if o = 15 then decide (v.toNat ≤ 7)
  else if o = 16 then decide (1 ≤ v.toNat ∧ v.toNat ≤ 4)
  else decide (bitsAt v 0 8 ≤ 63 ∧ bitsAt v 0 8 < zones ∧ 1 ≤ bitsAt v 8 8 ∧ bitsAt v 8 8 ≤ 15)

/-- The answer for a PLAN word: its state test first, then its range test (R2, R51, R116, R132). -/
def planJudged (state range : Bool) : Answer :=
  if state = false then .refuse .state else if range = false then .refuse .range else .pass

/-- The class of every word, and the answer that its class alone gives: an OPEN word passes whole or not, any other written
with fewer than four enables is refused with PARTIAL, and an OWNED one with STATE (R29, R30). -/
abbrev ClassesAreJudged (s : State) : Prop :=
  ∀ (js : List JudgedWord) (addr i o : Nat) (r : Region) (v : Word) (whole : Bool),
    let answer := s.judgeWord js ⟨addr, ⟨r, i, o⟩, v, whole⟩
    if openWord s.steam.active r o = true then answer = .pass
    else if whole = false then answer = .refuse .partialWord
    else if ownedWord s.steam.active r o = true then answer = .refuse .state
    else True

/-- The answers for the PLAN words of beds (R2), roster entries (R51), slots (R116), cranes (R132) and move ring entries
(R152), written whole among the judged words `js` of their transfer. -/
abbrev PlanWordsAreJudged (s : State) (js : List JudgedWord) (addr : Nat) (v : Word) : Prop :=
  let answer (r : Region) (i o : Nat) : Answer := s.judgeWord js ⟨addr, ⟨r, i, o⟩, v, true⟩
  (∀ (b : Fin 24) (o : Nat), o ≤ 16 →
    let requested : Bool := match wordFor (newWords js .bed b.val) 17 with
      | some code => decide (code ≠ 0)
      | none => (s.bedUnit b).request.isSome
    answer .bed b.val o = if requested = true then .refuse .busy
      else planJudged (decide (14 ≤ o ∨ (s.bedUnit b).state ∈ [.empty, .prepared])) (bedPlanFits s.dir.zones o v)) ∧
  (∀ (n : Nat) (e : ProbeEntry), s.roster[n]? = some e →
    answer .roster n 0 = planJudged (decide (e.state = .offline)) (decide (v.toNat ≤ 3)) ∧
    answer .roster n 1 = planJudged (decide (e.state = .offline)) (decide (1 ≤ v.toNat ∧ v.toNat ≤ 30)) ∧
    answer .roster n 2 = planJudged (decide (e.state ∈ [.offline, .lost])) (decide (v.toNat ≤ 25))) ∧
  (∀ (i : Nat) (x : Slot), s.slot? (i + 1) = some x →
    answer .slot i 0 = planJudged (decide (x.stack = [] ∧ x.claims = [])) (decide (v.toNat < s.dir.zones)) ∧
    answer .slot i 1 = (if v.toNat < 1 ∨ 6 < v.toNat then .refuse .range
      else if v.toNat < x.stack.length ∨ v.toNat < (s.planned x).peak then .refuse .state else .pass) ∧
    answer .slot i 2 = if v.toNat ≤ 1 then .pass else .refuse .range) ∧
  (∀ c : Fin 2, answer .crane c.val 3 =
    planJudged (decide ((s.mon c).armed = false)) (decide (5 ≤ v.toNat ∧ v.toNat ≤ 100))) ∧
  (∀ n o : Nat, o < 7 → answer .moveRing n o =
    if (match s.moves.intake with | some k => decide (k.entry = n) | none => false) = true then .refuse .busy else .pass)

/-- A WRITE is refused for the first of its judged words, in address order, that its owner refuses, and passes when none is
refused (R31). -/
abbrev FirstRefusalDecides (s : State) (addr : Nat) (words : List WriteWord) : Prop :=
  let js := judgedWords s.path.windows addr words
  (∀ a reason, s.judge addr words = .refused a reason →
    ∃ before j after, js = before ++ j :: after ∧ j.addr = a ∧ s.judgeWord js j = .refuse reason ∧
      ∀ k ∈ before, ∀ x, s.judgeWord js k ≠ .refuse x) ∧
  (∀ twins events, s.judge addr words = .passed twins events → ∀ k ∈ js, ∀ x, s.judgeWord js k ≠ .refuse x)

/-- HOST_WRITE in a calm part (R31, R34): a WRITE whose words all pass stands in memory whole and is answered DONE; a
WRITE with a refused word leaves memory as it was, and the refusal record names that word. A word of a mix is judged by
the use count and the ranges as the entry would stand after the transfer, and the copy takes a word that passed (R20). A
word of an active profile is twinned with its pending word in the bed states that R74 names, and is in memory when its
twin copy is issued, which holds the answer back (R33). The first judged word refused decides (R31), every word's class
answers as R29 and R30 have it, and the PLAN words of beds, roster entries, slots, cranes and ring entries are judged as R2,
R51, R116, R132 and R152 give. Three clauses are the model's choice: a word written with fewer enables is left out of the
new values its record is judged by (log entry 41), the notice ring is OWNED (log entry 10), and a claim list that fails
leaves the present stack as the planned one (log entry 72). -/
def Obligations.HostWriteIsWholeOrRefused : Prop :=
  (∀ s : State, ClassesAreJudged s) ∧
  (∀ (s : State) (js : List JudgedWord) (addr : Nat) (v : Word), PlanWordsAreJudged s js addr v) ∧
  (∀ (s : State) (addr : Nat) (words : List WriteWord), FirstRefusalDecides s addr words) ∧
  (∀ (addr : Nat) (words : List WriteWord) (s : State), s.Calm → addr + words.length ≤ 4194304 →
    words.all (fun w => decide (w.enables = 0)) = false →
    (∀ events, s.judge addr words = .passed [] events →
      ∃ t, exec (.hostWrite addr words) s = .next t ∧ t.mem = setHostWords s.mem addr words ∧
        t.host = ⟨none, [], [⟨.done, []⟩]⟩) ∧
    (∀ a reason, s.judge addr words = .refused a reason →
      ∃ u, exec (.hostWrite addr words) s = .next (finish u) ∧ u.mem = s.mem ∧
        u.host = ⟨none, [], [⟨.refused, []⟩]⟩ ∧ u.path.refusal = ⟨a, reason, s.dir.worksTime⟩)) ∧
  (∀ (s : State) (n : Nat) (new : List (Nat × Word)),
    let w (o : Nat) : Word := (wordFor new o).getD ((wordFor (mixWords (s.mix n)) o).getD 0)
    s.mixWord n new =
      if 0 < (s.mix n).useCount then .refuse .inUse
      else if -200 ≤ (w 0).toInt ∧ (w 0).toInt ≤ 100 ∧ 1 ≤ (w 1).toNat ∧ (w 1).toNat ≤ (w 2).toNat ∧
          (w 2).toNat ≤ (w 3).toNat ∧ 500 ≤ (w 4).toInt ∧ (w 4).toInt ≤ 800 then .pass
      else .refuse .range) ∧
  (∀ (s : State) (k o addr : Nat) (v : Word), s.Calm → s.WordLies .mix k o addr → k < 16 → o ≤ 4 →
    (s.mixWord (k + 1) [(o, v)] = .pass → ∃ t, exec (.hostWrite addr [⟨v, 15#4⟩]) s = .next t ∧ t.mem = setWord s.mem addr v ∧
      t.mix (k + 1) = (s.mix (k + 1)).withWords [(o, v)] ∧ t.host = ⟨none, [], [⟨.done, []⟩]⟩) ∧
    (∀ reason, s.mixWord (k + 1) [(o, v)] = .refuse reason → ∃ u, exec (.hostWrite addr [⟨v, 15#4⟩]) s = .next (finish u) ∧
      u.mem = s.mem ∧ u.mixes = s.mixes ∧ u.path.refusal = ⟨addr, reason, s.dir.worksTime⟩)) ∧
  (∀ (s : State) (b : Fin 24) (o addr : Nat) (v : Word), s.Calm → s.WordLies .bed b.val o addr → 32 ≤ o → o ≤ 49 →
    let curing : Bool := match (s.bedUnit b).request with | some r => decide (r.code = .startCure) | none => false
    let pendingWord := b.val * 80 + (if o < 34 then o + 18 else o + 20)
    if curing = false ∧ (s.cureUnit b).bedState ∈ [.empty, .prepared, .cast, .releasable, .detensioned] then
      ∃ t x, exec (.hostWrite addr [⟨v, 15#4⟩]) s = .next t ∧ t.mem = setWord s.mem addr v ∧ t.host.replies = [] ∧
        t.host.up = some x ∧ x.stage = .finishing ∧ t.path.port = .own (.write .bed pendingWord [some v]) ∧
        t.path.current = some ⟨.group ⟨.twin, [⟨.bed, pendingWord, [some v]⟩]⟩, [], []⟩
    else ∃ u, exec (.hostWrite addr [⟨v, 15#4⟩]) s = .next (finish u) ∧ u.mem = s.mem ∧
      u.host = ⟨none, [], [⟨.refused, []⟩]⟩ ∧
      u.path.refusal = ⟨addr, if curing = true then .busy else .state, s.dir.worksTime⟩)

/-- MEMORY_RESPONSE DONE (R34, R36, R37): a host READ returns the words of memory; a host WRITE is in memory and is
answered, or with twin words goes on to its twin copy at the head of the queue, which writes each twin word with the
value written to the word it twins, holds every record with a twin word, and writes nothing else but refreshes it takes
in (R33, R40); a write burst is in memory and the port is free; a read burst adds the words of memory to what its read
has gathered, and with the last burst the read leaves the queue with its data, to be handed to its owner (R41); a late
response changes nothing. When the last burst of a read is answered, the next own item is not begun before the read has
been handed (R41; section 2.11, steps 7 to 9; DEDUCED, log entry 84). With a restart pending R49 admits no new commit
group: that the twin copy of a WRITE taken before is let in then too is the model's choice (log entry 38). -/
def Obligations.MemoryResponseEndsTheTransfer : Prop :=
  ∀ s : State,
    exec (.memoryResponse .late) s = .next (finish s) ∧
    (∀ (u : UpTransfer) (n : Nat), s.path.port = .host → s.host.up = some u → u.xfer.op = .read n → s.host.backlog = [] →
      ∃ v, exec (.memoryResponse .done) s = .next (finish v) ∧ v.path.port = .free ∧ v.mem = s.mem ∧
        v.host = ⟨none, [], [⟨.done, wordsAt s.mem u.xfer.addr n⟩]⟩) ∧
    (∀ (u : UpTransfer) (ws : List WriteWord), s.path.port = .host → s.host.up = some u → u.xfer.op = .write ws →
      s.host.backlog = [] → u.reserved = false → u.twins = [] →
      ∃ v, exec (.memoryResponse .done) s = .next (finish v) ∧ v.path.port = .free ∧
        v.mem = setHostWords s.mem u.xfer.addr ws ∧ v.host = ⟨none, [], [⟨.done, []⟩]⟩) ∧
    (∀ (u : UpTransfer) (ws : List WriteWord), s.path.port = .host → s.host.up = some u → u.xfer.op = .write ws →
      u.twins ≠ [] → s.dir.lifecycle ≠ .safe →
      ∃ v g rest, exec (.memoryResponse .done) s = .next (finish v) ∧ v.path.port = .free ∧
        v.mem = setHostWords s.mem u.xfer.addr ws ∧ v.host.up = some { u with stage := .finishing, reserved := false } ∧
        v.path.queue = .group g :: rest ∧ g.completion = .twin ∧
        ((u.twins.map (·.1)).Nodup → (∀ x ∈ u.twins, x.1.offset < x.1.region.recLen) →
          let word (x : WordRef × Word) : Nat := x.1.index * x.1.region.recLen + x.1.offset
          (∀ x ∈ u.twins, v.held ⟨x.1.region, x.1.index⟩ = true ∧ ∃ sp ∈ g.spans, sp.region = x.1.region ∧
            sp.first ≤ word x ∧ sp.words[word x - sp.first]? = some (some x.2)) ∧
          (s.path.queue = [] → ∀ sp ∈ g.spans, ∀ k value, sp.words[k]? = some (some value) →
            ∃ x ∈ u.twins, x.1.region = sp.region ∧ word x = sp.first + k ∧ x.2 = value))) ∧
    (∀ (r : Region) (first : Nat) (ws : List (Option Word)) (c : Current),
      s.path.port = .own (.write r first ws) → s.path.current = some c →
      ∃ v, exec (.memoryResponse .done) s = .next (finish v) ∧ v.path.port = .free ∧
        v.mem = setWords s.mem (s.regionBase r + first) ws) ∧
    (∀ (r : Region) (first n : Nat) (c : Current), s.path.port = .own (.read r first n) → s.path.current = some c →
      let got := c.got ++ wordsAt s.mem (s.regionBase r + first) n
      (c.rest ≠ [] → ∃ v, exec (.memoryResponse .done) s = .next (finish v) ∧ v.path.port = .free ∧ v.mem = s.mem ∧
        v.path.current = some { c with got := got } ∧ v.path.returned = s.path.returned) ∧
      (∀ rd, c.rest = [] → c.item = .read rd → ∃ v, exec (.memoryResponse .done) s = .next (finish v) ∧
        v.path.port = .free ∧ v.mem = s.mem ∧ v.path.current = none ∧ v.path.queue = s.path.queue ∧
        v.path.returned = s.path.returned ++ [⟨rd, some got, 0⟩]) ∧
      (∀ rd, c.rest = [] → c.item = .read rd → (∀ u, s.host.up = some u → u.stage = .waiting) → s.path.outbox = [] →
        s.path.kept = [] → s.notices.writeList = [] → s.RunwayCalm →
        ∃ t, exec (.memoryResponse .done) s = .next t ∧ t.path.port = .free ∧ t.path.queue = s.path.queue))

/-- DATA_ERROR and MEMORY_TIMEOUT (R35, R36, R41, R43, R44, R45): the failure is recorded if no fault is; a failed host
READ is answered DATA_ERROR; so is a failed host WRITE, and a bed request it carried ends with MEMORY; a failed own read is
handed as failed; a failed own write sends RUNNING to SAFE, ends LOADING in SAFE with its load result (R185), and leaves
SAFE as it is (R187). -/
def Obligations.FailedTransferIsRecorded : Prop :=
  ∀ (s : State) (kind : FaultCode) (stored : Bool) (c : Instr),
    (c = .memoryResponse (.dataError stored) ∧ kind = .parity ∨ c = .memoryTimeout stored ∧ kind = .timeout) →
    let recorded (addr : Nat) (source : FaultSource) : Option FaultRecord :=
      match s.path.fault with
      | some f => some f
      | none => some ⟨addr, kind, source, false, s.dir.worksTime⟩
    (∀ (u : UpTransfer) (n : Nat), s.path.port = .host → s.host.up = some u → u.xfer.op = .read n → s.host.backlog = [] →
      ∃ v, exec c s = .next (finish v) ∧ v.path.port = .free ∧ v.mem = s.mem ∧
        v.host = ⟨none, [], [⟨.dataError, []⟩]⟩ ∧ v.path.fault = recorded u.xfer.addr .host) ∧
    (∀ (u : UpTransfer) (ws : List WriteWord), s.path.port = .host → s.host.up = some u → u.xfer.op = .write ws →
      s.host.backlog = [] → u.reserved = false →
      ∃ v, exec c s = .next (finish v) ∧ v.path.port = .free ∧ v.host = ⟨none, [], [⟨.dataError, []⟩]⟩ ∧
        v.mem = (if stored = true then setHostWords s.mem u.xfer.addr ws else s.mem) ∧
        v.dir.lifecycle = s.dir.lifecycle ∧ v.path.fault = recorded u.xfer.addr .host ∧
        ∀ b code, u.events = [.bed b code] → s.dir.lifecycle = .running →
          ∃ r, (v.bedUnit b).request = some r ∧ r.code = code ∧ r.stage = .waitingSlot ∧ r.result = .memory ∧
            v.path.outbox = s.path.outbox ++ [.bedRequest b]) ∧
    (∀ (r : Region) (first n : Nat) (x : Current) (rd : OwnRead),
      s.path.port = .own (.read r first n) → s.path.current = some x → x.item = .read rd →
      ∃ v, exec c s = .next (finish v) ∧ v.path.port = .free ∧ v.path.current = none ∧ v.mem = s.mem ∧
        v.path.returned = s.path.returned ++ [⟨rd, none, first⟩] ∧ v.dir = s.dir ∧
        v.path.fault = recorded (s.regionBase r + first) .own) ∧
    (∀ (r : Region) (first : Nat) (ws : List (Option Word)) (x : Current),
      s.path.port = .own (.write r first ws) → s.path.current = some x → s.host.up = none →
      ∃ v, exec c s = .next (finish v) ∧ v.dir.lifecycle = .safe ∧ v.path.port = .free ∧ v.path.current = none ∧
        v.path.fault = recorded (s.regionBase r + first) .own ∧
        (s.dir.lifecycle = .running → v.dir.safeCause = .memory ∧ v.path.slotWait = []) ∧
        (s.dir.lifecycle = .loading → v.dir.safeCause = .memory ∧ v.dir.loadCode = .memory ∧ v.dir.loadRegion = r.code ∧
          v.dir.loadIndex = (if r = .gateA then 0 else if r = .gateB then 1 else first / r.recLen) ∧ v.path.slotWait = []) ∧
        (s.dir.lifecycle = .safe → v.dir.safeCause = s.dir.safeCause ∧ v.dir.loadCode = s.dir.loadCode))

/-- FAULT_CLEAR in a calm part (R46): a fault that has been read is cleared; an unread one, or none, refuses it. -/
def Obligations.FaultClearNeedsARead : Prop :=
  ∀ (s : State) (addr : Nat), s.Calm → s.WordLies .directory 0 24 addr →
    ∃ u, exec .faultClear s = .next (finish u) ∧
      match s.path.fault with
      | none => u.mem = s.mem ∧ u.path.refusal = ⟨addr, .state, s.dir.worksTime⟩ ∧
          u.host.replies = [⟨.refused, []⟩] ∧ u.path.fault = none
      | some f =>
        if f.read = true then
          u.path.fault = none ∧ u.mem = setWord s.mem addr 1 ∧ u.host.replies = [⟨.done, []⟩]
        else u.mem = s.mem ∧ u.path.refusal = ⟨addr, .notSeen, s.dir.worksTime⟩ ∧
          u.host.replies = [⟨.refused, []⟩] ∧ u.path.fault = some f

/-- COMMIT_GROUP_ADMIT (R38, R28): the first kept event whose group fits enters the queue, and no record of it is left
unheld; one that does not fit stays kept. COMMIT_GROUP_COMPLETE (R39, R176, R6, R152, R10, R33, R79): the group leaves, and
its owner takes the completion; an accepted bed request's change of state is posted, at that moment as section 2.11 has it
(step 11; DEDUCED, log entry 20), a part of a large cast has its next group handed, and the twin copy's host WRITE is
answered DONE. A group handed while a waiting transfer on one of its records could be taken is kept, so that the taking and
the admission can come in either order, as R28 has it (DEDUCED, log entry 69); that a group for which a slot is free can
wait for the parties before it on the slot waiting list is the model's choice (log entry 39). -/
def Obligations.GroupIsAdmittedAndCompleted : Prop :=
  (∀ (s after : State) (j : Job) (spans : List Span) (done : Completion), s.path.kept = [j] →
     form j (s.withPath { s.path with kept := [] }) = (after, some (spans, done)) →
     (form j s).2 = some (spans, done) →
     (s.admissible (.owner j) spans = true →
       ∃ u, exec .commitGroupAdmit s = .next (finish u) ∧ u.path.kept = after.path.kept ∧
         (∃ g, .group g ∈ u.path.queue ∧ g.completion = done) ∧
         ∀ x : RecRef, (spans.any (fun sp => sp.touches x)) = true → u.held x = true) ∧
     (s.admissible (.owner j) spans = false → exec .commitGroupAdmit s = .next (finish s))) ∧
  (∀ (s after : State) (j : Job) (spans : List Span) (done : Completion),
     form j s = (after, some (spans, done)) → s.admissible (.owner j) spans = true →
     let meets : Prop := ∃ x, s.host.up = some x ∧ x.stage = .waiting ∧ s.transferHeld x.xfer = false ∧
       .hostWrite ∉ s.path.slotWait ∧ (∀ n, x.xfer.op = .read n → s.readWaits x.xfer = false) ∧
       ∃ record ∈ transferRecords x.xfer s.path.windows, (spans.any (fun sp => sp.touches record)) = true
     (meets → tryJob j s = s.withPath { s.path with kept := s.path.kept ++ [j] }) ∧
     (¬ meets → ∃ g, .group g ∈ (tryJob j s).path.queue ∧ g.completion = done)) ∧
  (∀ (s : State) (g : Group) (rest : List Group), s.path.answered = g :: rest → s.path.slotWait = [] →
     (∀ count head, g.completion = .notices count head →
       ∃ u, exec .commitGroupComplete s = .next (finish u) ∧ u.path.answered = rest ∧
         u.notices = { s.notices with writeList := s.notices.writeList.drop count, writtenHead := head, groupMark := false }) ∧
     (∀ b change r, g.completion = .bedResult b [] change → (s.bedUnit b).request = some r →
       ∃ u, exec .commitGroupComplete s = .next (finish u) ∧ u.path.answered = rest ∧
         (u.bedUnit b).request = none ∧ (u.bedUnit b).state = (s.bedUnit b).state ∧ u.freeCount = s.freeCount) ∧
     (∀ b old new r, g.completion = .bedResult b [] (some (old, new)) → (s.bedUnit b).request = some r → r.result = .accepted →
       ∃ u, exec .commitGroupComplete s = .next (finish u) ∧ u.path.answered = rest ∧ u.notices = s.notices.place s.running
         ⟨.bedState, .bed, b.val + 1, Word.ofCount (old.toNat + 65536 * new.toNat), s.dir.worksTime⟩) ∧
     (∀ k i, g.completion = .intake → s.moves.intake = some k → k.table = some i →
       ∃ u, exec .commitGroupComplete s = .next (finish u) ∧ u.path.answered = rest ∧ u.moves.intake = none ∧
         u.moves.nextIndex = (if s.moves.nextIndex + 1 < s.moves.ringSize then s.moves.nextIndex + 1 else 0) ∧
         (u.move i).accepted = true) ∧
     (∀ b r, g.completion = .bedPart b [] → (s.bedUnit b).request = some r →
       ∃ u, exec .commitGroupComplete s = .next (finish u) ∧ u.path.answered = rest ∧
         (u.bedUnit b).request = some { r with stage := .waitingSlot } ∧ u.path.outbox = s.path.outbox ++ [.bedRequest b]) ∧
     (∀ b, g.completion = .take b → ∃ u, exec .commitGroupComplete s = .next (finish u) ∧ u.path.answered = rest ∧
       u.cureUnit b = { s.cureUnit b with take := .none }) ∧
     (∀ w, g.completion = .twin → s.host.up = some w → s.host.backlog = [] →
       ∃ u, exec .commitGroupComplete s = .next (finish u) ∧ u.path.answered = rest ∧
         u.host = ⟨none, [], [⟨.done, []⟩]⟩ ∧ u.mem = s.mem))

/-! ### Casting beds (chapter 1) -/

/-- How a write of a bed's request word is judged (R5). -/
def Obligations.BedRequestIsJudgedInOrder : Prop :=
  ∀ (s : State) (b : Fin 24) (value : Nat),
    s.bedVerdict b value =
      if 9 < value then .range
      else if ((s.bedUnit b).request).isSome = true then .busy
      else if value = 0 then .none
      else if (value, (s.bedUnit b).state) ∈ [(1, .empty), (2, .prepared), (9, .prepared), (3, .cast), (3, .standing),
          (4, .cast), (9, .cast), (7, .curing), (8, .releasable)] ∨
          (value = 5 ∧ (s.bedUnit b).state = .curing ∧ s.subState b ≠ some .held) ∨
          (value = 6 ∧ (s.bedUnit b).state = .curing ∧ s.subState b = some .held) then
        (if value = 2 ∧ s.freeCount < (s.bedUnit b).pieceCount then .noRoom else .none)
      else .state

/-- The bed record as the intake read of a request finds it: memory with the request word written. -/
def intakeRecord (s : State) (b : Fin 24) (addr : Nat) (code : BedCode) : List Word :=
  wordsAt (setWord s.mem addr (.ofCount code.toNat)) (s.regionBase .bed + b.val * 80) 80

/-- A bed request that the bus passes in a calm part, with no event of the concrete waiting. -/
abbrev BedReady (s : State) (b : Fin 24) (addr : Nat) (code : BedCode) : Prop :=
  s.Calm ∧ s.WordLies .bed b.val 17 addr ∧ s.bedVerdict b code.toNat = .none ∧ (s.bedUnit b).deferred = []

/-- What an accepted request leaves of its bed once its result group has been handed. -/
abbrev BedAccepted (t : State) (b : Fin 24) (code : BedCode) (new : BedState) : Prop :=
  (t.bedUnit b).state = new ∧ (t.cureUnit b).bedState = new ∧
  ∃ r, (t.bedUnit b).request = some r ∧ r.code = code ∧ r.stage = .resultInFlight ∧ r.result = .accepted

/-- PREPARE, STAND and DETENSION in a calm part (R8, R12, R15): the bed takes its new state, and no live field of its
cure but the state changes. The use count of the bed's mix rises by one as the bed leaves EMPTY and falls by one as it
returns there (R4). -/
def Obligations.PrepareStandDetensionMoveTheBed : Prop :=
  ∀ (s : State) (b : Fin 24) (addr : Nat),
    (BedReady s b addr .prepare → ∃ t, exec (.prepare b) s = .next t ∧ BedAccepted t b .prepare .prepared ∧
      t.cureUnit b = { s.cureUnit b with bedState := .prepared } ∧
      (1 ≤ (s.bedUnit b).mix → (s.bedUnit b).mix ≤ 16 →
        (t.mix (s.bedUnit b).mix).useCount = (s.mix (s.bedUnit b).mix).useCount + 1)) ∧
    (BedReady s b addr .stand → ∃ t, exec (.stand b) s = .next t ∧ BedAccepted t b .stand .standing ∧
      t.cureUnit b = { s.cureUnit b with bedState := .standing } ∧ t.mixes = s.mixes) ∧
    (BedReady s b addr .detension → ∃ t, exec (.detension b) s = .next t ∧
      BedAccepted t b .detension (if (s.bedUnit b).inBed = [] then .empty else .detensioned) ∧
      t.cureUnit b = { s.cureUnit b with bedState := if (s.bedUnit b).inBed = [] then .empty else .detensioned } ∧
      ((s.bedUnit b).inBed ≠ [] → t.mixes = s.mixes) ∧
      ((s.bedUnit b).inBed = [] → 1 ≤ (s.bedUnit b).mix → (s.bedUnit b).mix ≤ 16 →
        (t.mix (s.bedUnit b).mix).useCount = (s.mix (s.bedUnit b).mix).useCount - 1))

/-- HOLD and RESUME in a calm part (R13, R85): HOLD puts the cure in HELD from whichever sub-state, RESUME takes it
out into the one its flags give, and the bed stays CURING. HOLD ends the steam of a bed that ran (R105, R106), and its
demand stands until the next control step (R105). -/
def Obligations.HoldAndResumeSetTheSubState : Prop :=
  ∀ (s : State) (b : Fin 24) (addr : Nat) (c : CureContext), (s.cureUnit b).context = some c →
    (BedReady s b addr .hold → ∃ t, exec (.hold b) s = .next t ∧ BedAccepted t b .hold .curing ∧
      (t.cureUnit b).context = some { c with held := true, sub := .held, duty := 0 } ∧
      (t.steamBed b).demand = (s.steamBed b).demand ∧ (t.steamBed b).running = false ∧
      ((s.steamBed b).running = true → (t.steamBed b).valve = false ∧ (t.steamBed b).closed = true)) ∧
    (BedReady s b addr .resume → ∃ t, exec (.resume b) s = .next t ∧ BedAccepted t b .resume .curing ∧
      (t.cureUnit b).context =
        some { c with held := false, sub := if c.blind then .blind else if c.overheat then .overheat else .running })

/-- A take that END_CURE discards: pending, with its group not yet handed (R80). -/
abbrev TakeDiscardable (t : TakeStage) : Prop :=
  t = .waitingSegmentEnd ∨ t = .readInFlight ∨ ∃ verdict pending, t = .formed verdict pending

/-- The profile test on the words of a bed record (R76): the segment count and the band stand at `header`, and the segment
entries, of two words each, from `entries` on (R190). -/
def profileVerdict (record : List Word) (header entries : Nat) : Code :=
  let w (o : Nat) : Word := record.getD o 0
  let count := (w header).toNat
  let band := (w (header + 1)).toNat
  let bad (k : Nat) : Bool :=
    let target := ((w (entries + 2 * k)).extractLsb' 0 16).toInt
    decide (target < -400 ∨ 700 < target ∨ 100 < ((w (entries + 2 * k)).extractLsb' 16 8).toNat ∨
      4320 < ((w (entries + 2 * k + 1)).extractLsb' 0 16).toNat ∨ 1 < ((w (entries + 2 * k + 1)).extractLsb' 16 8).toNat)
  if count < 1 ∨ 8 < count ∨ band < 10 ∨ 200 < band then .noProfile
  else if (List.range count).any bad then .badSegment else .none

/-- START_CURE in a calm part (R11, R91): with a good profile and probes enough the bed is CURING in RUNNING, and
otherwise it stays and the first failing check is the result. END_CURE in a calm part (R14, R92): the cure is dropped,
and the maturity decides between RELEASABLE and STANDING. END_CURE discards a pending take (R80): PROFILE_REFUSED is
posted with DISCARDED, the result group carries the TAKE word NONE and the take result DISCARDED, the take is pending
until that group completes, and a take read that returns meanwhile is discarded unexamined. The profile test, of an
active and of a pending profile, is that of R76. -/
def Obligations.CureStartsAndEnds : Prop :=
  (∀ record : List Word, record.length = 80 →
     profileTest (activeProfile record) = profileVerdict record 32 34 ∧
     profileTest (pendingProfile record) = profileVerdict record 50 54) ∧
  (∀ (s : State) (b : Fin 24) (addr : Nat), BedReady s b addr .startCure →
     let record := intakeRecord s b addr .startCure
     let verdict : Code :=
       if profileTest (activeProfile record) ≠ .none then profileTest (activeProfile record)
       else if (s.onlineFor b).length < (record.getD 16 0).toNat then .probes else .accepted
     (verdict = .accepted → ∃ t, exec (.startCure b) s = .next t ∧ BedAccepted t b .startCure .curing ∧
       (t.cureUnit b).maturity = (s.cureUnit b).maturity ∧ (t.steamBed b).running = true ∧
       (t.cureUnit b).context = some
         { held := false, blind := false, overheat := false, sub := .running, segment := 1, phase := .moving,
           setpoint := meanDown ((s.onlineFor b).map (·.air)), holdDone := 0, ramp := 0, duty := 0, ended := false,
           profile := activeProfile record }) ∧
     (verdict ≠ .accepted → ∃ t, exec (.startCure b) s = .next t ∧ (t.bedUnit b).state = (s.bedUnit b).state ∧
       ∃ r, (t.bedUnit b).request = some r ∧ r.stage = .resultInFlight ∧ r.result = verdict)) ∧
  (∀ (s : State) (b : Fin 24) (addr : Nat), BedReady s b addr .endCure → (s.cureUnit b).take = .none →
     ∃ t, exec (.endCure b) s = .next t ∧ (t.cureUnit b).context = none ∧
       BedAccepted t b .endCure
         (if (s.mix (s.bedUnit b).mix).release ≤ (s.cureUnit b).maturity then .releasable else .standing) ∧
       (t.cureUnit b).maturity = (s.cureUnit b).maturity ∧ (t.steamBed b).demand = 0) ∧
  (∀ (s : State) (b : Fin 24) (addr : Nat), BedReady s b addr .endCure → TakeDiscardable (s.cureUnit b).take →
     (∃ t, exec (.endCure b) s = .next t ∧ (t.cureUnit b).context = none ∧ (t.cureUnit b).take = .discarding ∧
       BedAccepted t b .endCure
         (if (s.mix (s.bedUnit b).mix).release ≤ (s.cureUnit b).maturity then .releasable else .standing)) ∧
     ((s.bed b).alarm.conditions = 0 → ∃ u, exec (.endCure b) s = .next (finish u) ∧ u.path.outbox = [.bedRequest b] ∧
       u.notices = s.notices.place true
         ⟨.profileRefused, .bed, b.val + 1, .ofCount Code.discarded.toNat, s.dir.worksTime⟩)) ∧
  (∀ (s : State) (b : Fin 24) (r : BedRequest), (s.bedUnit b).request = some r → r.stage = .waitingSlot →
     r.code = .endCure → r.result = .accepted → r.toWrite = [] → (s.bedUnit b).state = .curing →
     r.target ∈ [.releasable, .standing] →
     ∃ after, form (.bedRequest b) s = (after, some ([recordSpan .bed b.val
         ([(17, 0), (30, resultWord 7 .accepted), (18, .ofCount r.target.toNat), (26, 0)] ++
           (if (s.cureUnit b).take = .discarding then [(52, 0), (53, .ofCount Code.discarded.toNat)] else []))],
         .bedResult b [] (some (.curing, r.target)))) ∧
       (after.bedUnit b).state = r.target ∧ (after.cureUnit b).take = (s.cureUnit b).take) ∧
  (∀ (s : State) (b : Fin 24) (g : Group) (rest : List Group) (change : Option (BedState × BedState)) (r : BedRequest),
     s.path.answered = g :: rest → s.path.slotWait = [] → g.completion = .bedResult b [] change →
     (s.bedUnit b).request = some r → (s.cureUnit b).take = .discarding →
     ∃ u, exec .commitGroupComplete s = .next (finish u) ∧ (u.cureUnit b).take = .none) ∧
  (∀ (s : State) (b : Fin 24) (rd : OwnRead) (data : Option (List Word)) (k : Nat) (rest : List ReturnedRead),
     s.path.returned = ⟨rd, data, k⟩ :: rest → rd.purpose = .take b → (s.cureUnit b).take = .discarding →
     ∃ u, exec .ownReadDone s = .next (finish u) ∧ u.path.returned = rest ∧ u.path.outbox = s.path.outbox ∧
       u.cureUnit b = s.cureUnit b ∧ u.notices = s.notices)

/-- CAST in a calm part (R5, R9): the pieces set aside are the lowest-numbered FREE ones, in number order, as many as
the piece count, and the result is formed with them at the works time of the moment. Its groups (R9, R10): as long as
the runs still to write do not fit in one group with the bed record, a group makes the pieces of the first six runs and
leaves the bed PREPARED; the last, the result group, makes the rest, and with it the bed is CAST with all its pieces,
the maturity is 0 and the mix is counted once for each piece (R1, R4). -/
def Obligations.CastMakesTheLowestFreePieces : Prop :=
  (∀ (s : State) (b : Fin 24) (addr : Nat), BedReady s b addr .cast →
     ∃ u r, exec (.cast b) s = .next (finish u) ∧ u.freeCount = s.freeCount - (s.bedUnit b).pieceCount ∧
       (u.bedUnit b).request = some r ∧ u.path.outbox = [.bedRequest b] ∧
       r.code = .cast ∧ r.result = .accepted ∧ r.stage = .waitingSlot ∧ r.time = s.dir.worksTime ∧
       r.pieces.Pairwise (· < ·) ∧ r.toWrite = r.pieces ∧
       (let free (n : Nat) : Bool := (s.piece? n).any (fun p => decide (p.state = .free))
        ∀ n, n ∈ r.pieces ↔ free n = true ∧ ((List.range n).filter free).length < (s.bedUnit b).pieceCount) ∧
       r.plan = ((intakeRecord s b addr .cast).drop 2).take 12 ∧ u.mem = setWord s.mem addr 2) ∧
  (∀ (s : State) (b : Fin 24) (r : BedRequest), (s.bedUnit b).request = some r → r.stage = .waitingSlot →
     r.code = .cast → r.result = .accepted → r.pieces.Nodup → (∀ n ∈ r.toWrite, n ∈ r.pieces) →
     (∀ n ∈ r.pieces, (s.piece? n).isSome = true) → (s.bedUnit b).state = .prepared →
     1 ≤ (s.bedUnit b).mix → (s.bedUnit b).mix ≤ 16 →
     let runs := runsOf r.toWrite
     let first := (runs.take 6).flatten
     let makes (after : State) (ns : List Nat) : Prop := ∀ i (h : i < r.pieces.length), r.pieces[i] ∈ ns →
       ∃ p, after.piece? r.pieces[i] = some p ∧ p.state = .inBed ∧ p.bed = b.val + 1 ∧ p.position = i + 1 ∧
         p.length = bitsAt (r.plan.getD i 0) 8 8 ∧ p.zone = bitsAt (r.plan.getD i 0) 0 8 ∧ p.mix = (s.bedUnit b).mix ∧
         p.maturity = 0 ∧ p.slot = 0 ∧ p.claim = 0 ∧ p.hold = 0 ∧ p.ready = false
     (runs.length ≤ 5 →
       ∃ after spans, form (.bedRequest b) s = (after, some (spans, .bedResult b [] (some (.prepared, .cast)))) ∧
         spans.length = runs.length + 1 ∧ (after.bedUnit b).state = .cast ∧ (after.bedUnit b).inBed = r.pieces ∧
         (after.cureUnit b).maturity = 0 ∧ (after.cureUnit b).sighted = false ∧ makes after r.toWrite ∧
         (after.mix (s.bedUnit b).mix).useCount = (s.mix (s.bedUnit b).mix).useCount + r.pieces.length) ∧
     (6 ≤ runs.length →
       ∃ after spans left, form (.bedRequest b) s = (after, some (spans, .bedPart b [])) ∧ spans.length = 6 ∧
         (after.bedUnit b).state = .prepared ∧ (after.bedUnit b).inBed = (s.bedUnit b).inBed ∧ after.mixes = s.mixes ∧
         (after.bedUnit b).request = some { r with stage := .resultInFlight, toWrite := left } ∧
         (∀ n, n ∈ left ↔ n ∈ r.toWrite ∧ n ∉ first) ∧ makes after first))

/-- CLEAR in a calm part (R16): from PREPARED the bed is EMPTY; from CAST every piece of its in-bed list, in one
group, is being freed and the in-bed list is empty. The mix is no longer counted for the bed (R4); it is for a piece until
the piece is FREE in memory. A list of whatever length is formed into the result, in piece number order, and leaves the bed.
Its groups (R16, R10): as long as the runs do not fit in one group with the bed record, a group frees the pieces of the first
six runs and leaves the bed's state; the last, the result group, frees the rest and makes the bed EMPTY. When such a group has
been done at memory its pieces are FREE, for each the free-piece count rises by one and the use count of its mix falls by one,
and the next group is handed (R16, R10, R112). So with the result group, with which the request ends and the change of state
is posted (that it is posted at that moment is DEDUCED, log entry 20). -/
def Obligations.ClearFreesThePieces : Prop :=
  (∀ (s : State) (b : Fin 24) (addr : Nat), BedReady s b addr .clear → (runsOf (sortBy id (s.bedUnit b).inBed)).length ≤ 5 →
     (∀ n ∈ (s.bedUnit b).inBed, (s.piece? n).isSome = true) →
     ∃ t, exec (.clear b) s = .next t ∧ BedAccepted t b .clear .empty ∧ (t.bedUnit b).inBed = [] ∧
       (∀ n ∈ (s.bedUnit b).inBed, ∃ p, t.piece? n = some p ∧ p.state = .freeing ∧ p.hold = 0) ∧
       (1 ≤ (s.bedUnit b).mix → (s.bedUnit b).mix ≤ 16 →
         (t.mix (s.bedUnit b).mix).useCount = (s.mix (s.bedUnit b).mix).useCount - 1)) ∧
  (∀ (s : State) (b : Fin 24) (addr : Nat), BedReady s b addr .clear →
     ∃ u r, exec (.clear b) s = .next (finish u) ∧ u.path.outbox = [.bedRequest b] ∧ (u.bedUnit b).inBed = [] ∧
       (u.bedUnit b).state = (s.bedUnit b).state ∧ (u.bedUnit b).request = some r ∧ r.code = .clear ∧ r.result = .accepted ∧
       r.stage = .waitingSlot ∧ r.toWrite.Perm (s.bedUnit b).inBed ∧ r.toWrite.Pairwise (· ≤ ·)) ∧
  (∀ (s : State) (b : Fin 24) (r : BedRequest), (s.bedUnit b).request = some r → r.stage = .waitingSlot →
     r.code = .clear → r.result = .accepted → (∀ n ∈ r.toWrite, (s.piece? n).isSome = true) →
     (s.bedUnit b).state ∈ [.prepared, .cast] →
     let runs := runsOf r.toWrite
     let first := (runs.take 6).flatten
     let frees (after : State) (ns : List Nat) : Prop :=
       ∀ n ∈ ns, ∃ p, after.piece? n = some p ∧ p.state = .freeing ∧ p.slot = 0 ∧ p.claim = 0 ∧ p.hold = 0
     (runs.length ≤ 5 →
       ∃ after spans, form (.bedRequest b) s =
           (after, some (spans, .bedResult b runs.flatten (some ((s.bedUnit b).state, .empty)))) ∧
         spans.length = runs.length + 1 ∧ (after.bedUnit b).state = .empty ∧ frees after r.toWrite) ∧
     (6 ≤ runs.length →
       ∃ after spans left, form (.bedRequest b) s = (after, some (spans, .bedPart b first)) ∧ spans.length = 6 ∧
         (after.bedUnit b).state = (s.bedUnit b).state ∧
         (after.bedUnit b).request = some { r with stage := .resultInFlight, toWrite := left } ∧
         (∀ n, n ∈ left ↔ n ∈ r.toWrite ∧ n ∉ first) ∧ frees after first)) ∧
  (∀ (s : State) (g : Group) (rest : List Group) (b : Fin 24) (freed : List Nat) (r : BedRequest),
     s.path.answered = g :: rest → s.path.slotWait = [] → g.completion = .bedPart b freed →
     (s.bedUnit b).request = some r → s.dir.lifecycle = .running → freed.Nodup →
     (∀ n ∈ freed, (s.piece? n).isSome = true) →
     ∃ u, exec .commitGroupComplete s = .next (finish u) ∧ u.path.answered = rest ∧
       u.freeCount = s.freeCount + freed.length ∧
       (∀ n ∈ freed, ∀ p, s.piece? n = some p → u.piece? n = some { p with state := .free, ready := false }) ∧
       (∀ m, 1 ≤ m → m ≤ 16 → (u.mix m).useCount =
         (s.mix m).useCount - (freed.filter (fun n => (s.piece? n).any (fun p => decide (p.mix = m)))).length) ∧
       (u.bedUnit b).request = some { r with stage := .waitingSlot } ∧ u.path.outbox = s.path.outbox ++ [.bedRequest b]) ∧
  (∀ (s : State) (g : Group) (rest : List Group) (b : Fin 24) (freed : List Nat) (old new : BedState) (r : BedRequest),
     s.path.answered = g :: rest → s.path.slotWait = [] → g.completion = .bedResult b freed (some (old, new)) →
     (s.bedUnit b).request = some r → r.result = .accepted → s.dir.lifecycle = .running → freed.Nodup →
     (∀ n ∈ freed, (s.piece? n).isSome = true) →
     ∃ u, exec .commitGroupComplete s = .next (finish u) ∧ u.path.answered = rest ∧
       u.freeCount = s.freeCount + freed.length ∧
       (∀ n ∈ freed, ∀ p, s.piece? n = some p → u.piece? n = some { p with state := .free, ready := false }) ∧
       (∀ m, 1 ≤ m → m ≤ 16 → (u.mix m).useCount =
         (s.mix m).useCount - (freed.filter (fun n => (s.piece? n).any (fun p => decide (p.mix = m)))).length) ∧
       (u.bedUnit b).request = none ∧ u.notices = s.notices.place true
         ⟨.bedState, .bed, b.val + 1, Word.ofCount (old.toNat + 65536 * new.toNat), s.dir.worksTime⟩)

/-! ### Probe loops (chapter 3) -/

/-- POLL_SLOT (R64, R68, R66): a RUNNING loop with no poll begins the poll of the next entry, one with a poll marks
the slot pending, a STUCK loop gives the next entry a miss, and a loop in IDLE-START does nothing. What a poll sends (R59,
R191): an address character with its mark 1, and READ, value 1, with mark 0, each behind its start bit and before its stop
bit, data least significant bit first. POLL_SENT (R59, R61): the transmission ends, and the poll waits for its reply; a
character that the transmission cut is given up (the model's choice, log entry 36). -/
def Obligations.PollSlotPollsTheNextEntry : Prop :=
  (∀ (s : State) (l : Fin 4),
     ((s.loop l).line = .running → (s.loop l).poll = none → ∀ n e, nextPolled s.roster l.val (s.loop l).pointer = some n →
       s.roster[n]? = some e → ∃ t, exec (.pollSlot l) s = .next t ∧ t.roster = s.roster ∧
         t.loop l = { s.loop l with pointer := some n, poll := some ⟨n, false, false, []⟩, tx := .poll (pollBits e.address) }) ∧
     ((s.loop l).line = .running → (s.loop l).poll = none → nextPolled s.roster l.val (s.loop l).pointer = none →
       ∃ t, exec (.pollSlot l) s = .next t ∧ t.roster = s.roster ∧ t.loops = s.loops) ∧
     (∀ p, (s.loop l).line = .running → (s.loop l).poll = some p → ∃ t, exec (.pollSlot l) s = .next t ∧
       t.roster = s.roster ∧ t.loop l = { s.loop l with slotPending := true }) ∧
     ((s.loop l).line = .stuck → ∀ n e, nextPolled s.roster l.val (s.loop l).pointer = some n → s.roster[n]? = some e →
       ∃ t e', exec (.pollSlot l) s = .next t ∧ t.loop l = { s.loop l with pointer := some n } ∧
         t.roster[n]? = some e' ∧ e'.outcome = .stuck ∧ e'.miss = min (e.miss + 1) 255 ∧ e'.good = 0) ∧
     ((s.loop l).line = .idleWaiting ∨ (s.loop l).line = .idleSending → ∃ t, exec (.pollSlot l) s = .next t ∧
       t.roster = s.roster ∧ t.loops = s.loops)) ∧
  (∀ a : Nat, pollBits a =
     [false, a.testBit 0, a.testBit 1, a.testBit 2, a.testBit 3, a.testBit 4, a.testBit 5, a.testBit 6, a.testBit 7, true, true,
      false, true, false, false, false, false, false, false, false, false, true]) ∧
  (∀ (s : State) (l : Fin 4) (p : Poll), (s.loop l).poll = some p → p.sent = false →
     ∃ t, exec (.pollSent l) s = .next t ∧ t.roster = s.roster ∧
       t.loop l = { s.loop l with poll := some { p with sent := true }, tx := .released, replyMs := 0,
                                  rx := ⟨.lookForStart, (s.loop l).rx.high, 0⟩ })

/-- The commands that end the poll of a loop with an outcome: a reply block that the receiver of a line the part does not
drive hears to its gap, or one of the two times that run out, the first of them without a start bit (R59 to R63). -/
inductive EndsPoll (x : Loop) (l : Fin 4) (address : Nat) : Instr → Outcome → Prop where
  | window (silent : x.replyBegun = false) : EndsPoll x l address (.replyWindowExpiry l) (.miss .timeout)
  | limit : EndsPoll x l address (.replyLimitExpiry l) (.miss .timeout)
  | block (samples : List Bool) (rx : LineReceiver) (chars : List RxChar) (free : x.tx = .released)
      (heard : loopForm.listen x.rx x.received samples = ⟨rx, chars, true, []⟩) :
      EndsPoll x l address (.probeReply l samples) (judgeReply address chars)

/-- A poll that waits for its reply on a RUNNING loop, and the entry it polls. -/
abbrev PollWaits (s : State) (l : Fin 4) (p : Poll) (e : ProbeEntry) : Prop :=
  (s.loop l).line = .running ∧ (s.loop l).poll = some p ∧ p.sent = true ∧ s.roster[p.entry]? = some e

/-- An outcome ends the poll: the loop has no poll in flight, unless a pending slot begins the next one (R63, R64,
R65). An abandoned poll hands no outcome. A FRAMING outcome (R57) bars the probe; its condition is raised where the alarm
blocks exist (R174, R181). -/
def Obligations.OutcomeEndsThePoll : Prop :=
  (∀ (s : State) (l : Fin 4) (p : Poll) (e : ProbeEntry) (c : Instr) (o : Outcome), PollWaits s l p e →
     EndsPoll (s.loop l) l e.address c o →
     ∃ t, exec c s = .next t ∧ (t.loop l).slotPending = false ∧
       ((s.loop l).slotPending = false → (t.loop l).poll = none ∧ (t.loop l).pointer = (s.loop l).pointer) ∧
       (p.abandoned = true → t.roster = s.roster) ∧
       (∀ m, m ≠ p.entry → t.roster[m]? = s.roster[m]?)) ∧
  (∀ (s : State) (l : Fin 4) (p : Poll) (e : ProbeEntry) (c : Instr), PollWaits s l p e →
     p.abandoned = false → e.state ∈ [.suspect, .online, .lost] → EndsPoll (s.loop l) l e.address c .framing →
     ∃ t e', exec c s = .next t ∧ t.roster[p.entry]? = some e' ∧ e'.state = .barred ∧ e'.outcome = .framing ∧ e'.miss = 0 ∧
       e'.good = 0 ∧ e'.core = e.core ∧ e'.air = e.air ∧ e'.readingTime = e.readingTime ∧
       (e.state = .lost → e'.alarm.conditions.getLsbD 0 = false) ∧
       (s.notices.alarmsBuilt = true → e'.alarm.conditions.getLsbD 1 = true))

/-- A GOOD outcome (R55). -/
def Obligations.GoodOutcomeStoresTheReadings : Prop :=
  ∀ (s : State) (l : Fin 4) (p : Poll) (e : ProbeEntry) (c : Instr) (r : ProbeReading), PollWaits s l p e →
    p.abandoned = false → e.state ∈ [.suspect, .online, .lost] → EndsPoll (s.loop l) l e.address c (.good r) →
    ∃ t e', exec c s = .next t ∧ t.roster[p.entry]? = some e' ∧ e'.core = r.core ∧ e'.air = r.air ∧
      e'.readingTime = s.dir.worksTime ∧ e'.outcome = .good ∧ e'.miss = 0 ∧
      (e.state = .suspect → e.good + 1 < 2 → e'.state = .suspect ∧ e'.good = e.good + 1) ∧
      (e.state = .suspect → 2 ≤ e.good + 1 → e'.state = .online ∧ e'.good = 0) ∧
      (e.state = .online → e'.state = .online) ∧
      (e.state = .lost → e'.state = .suspect ∧ e'.good = 1 ∧ e'.alarm.conditions.getLsbD 0 = false)

/-- A miss outcome (R56). The LOST condition is raised where the alarm blocks exist (R174, R181). -/
def Obligations.MissOutcomeCountsTheMiss : Prop :=
  ∀ (s : State) (l : Fin 4) (p : Poll) (e : ProbeEntry) (c : Instr) (code : PollOutcome), PollWaits s l p e →
    p.abandoned = false → e.state ∈ [.suspect, .online, .lost] → EndsPoll (s.loop l) l e.address c (.miss code) →
    ∃ t e', exec c s = .next t ∧ t.roster[p.entry]? = some e' ∧ e'.outcome = code ∧ e'.miss = min (e.miss + 1) 255 ∧
      e'.core = e.core ∧ e'.air = e.air ∧ e'.readingTime = e.readingTime ∧ e'.good = 0 ∧
      (e.state = .online → e'.state = .suspect) ∧
      (e.state = .suspect → e'.miss < 3 → e'.state = .suspect) ∧
      (e.state = .suspect → 3 ≤ e'.miss → e'.state = .lost ∧
        (s.notices.alarmsBuilt = true → e'.alarm.conditions.getLsbD 0 = true)) ∧
      (e.state = .lost → e'.state = .lost)

/-- The outcome of a reply block, the first that applies (R63), from its first six characters. -/
def Obligations.ReplyOutcomeIsTheFirstThatApplies : Prop :=
  ∀ (address : Nat) (chars : List RxChar),
    ((chars.take 6).any (·.framing) = true → judgeReply address chars = .framing) ∧
    ((chars.take 6).any (·.framing) = false → chars.length < 6 → judgeReply address chars = .miss .partialReply) ∧
    ∀ c0 c1 c2 c3 c4 c5, chars.take 6 = [c0, c1, c2, c3, c4, c5] → (chars.take 6).any (·.framing) = false →
      let core := (c1.data ++ c2.data : BitVec 16).toInt
      let air := (c3.data ++ c4.data : BitVec 16).toInt
      judgeReply address chars =
        if (chars.take 6).any (·.mark) = true then .miss .collision
        else if (chars.take 6).any (·.noise) = true then .miss .noise
        else if c0.data.toNat ≠ address then .miss .echo
        else if c5.data.toNat ≠ (c0.data.toNat + c1.data.toNat + c2.data.toNat + c3.data.toNat + c4.data.toNat) % 256 then
          .miss .check
        else if core < -400 ∨ 1200 < core ∨ air < -400 ∨ 1200 < air then .miss .range
        else .good ⟨core, air⟩

/-- LOW_TIMER_EXPIRY (R67), HIGH_TIMER_EXPIRY and BREAK_RETRY_EXPIRY (R68), START_SEQUENCE_DONE (R66). The STUCK condition is
raised where the alarm blocks exist (R174, R181). Samples of the line move the timers too: a sample read high puts the low
timer of a RUNNING loop back to 0 (R67), one read low the high timer of a STUCK one (R68). That the receiver gives up the
character it had begun when the start sequence is done is the model's choice (log entry 36). -/
def Obligations.LineTimersMoveTheLoop : Prop :=
  ∀ (s : State) (l : Fin 4),
    ((s.loop l).line = .running → ∃ t, exec (.lowTimerExpiry l) s = .next t ∧ (t.loop l).line = .stuck ∧
      (t.loop l).poll = none ∧ (t.loop l).slotPending = false ∧ (t.loop l).highTimer = 0 ∧ (t.loop l).breakTimer = 0 ∧
      (t.loop l).pointer = (s.loop l).pointer ∧
      (s.notices.alarmsBuilt = true → (t.loop l).alarm.conditions.getLsbD 0 = true) ∧
      (∀ p e, (s.loop l).poll = some p → p.abandoned = false → s.roster[p.entry]? = some e →
        e.state ∈ [.suspect, .online, .lost] → ∃ e', t.roster[p.entry]? = some e' ∧ e'.outcome = .stuck ∧
          e'.miss = min (e.miss + 1) 255)) ∧
    ((s.loop l).line = .stuck → ∃ t, exec (.highTimerExpiry l) s = .next t ∧ (t.loop l).line = .idleSending ∧
      (t.loop l).tx = .startSequence ∧ (t.loop l).alarm.conditions.getLsbD 0 = false ∧ t.roster = s.roster) ∧
    ((s.loop l).line = .stuck → ∃ t, exec (.breakRetryExpiry l) s = .next t ∧ t.roster = s.roster ∧
      t.loop l = { s.loop l with tx := .breakOnly, breakTimer := 0 }) ∧
    ((s.loop l).line = .idleSending → ∃ t, exec (.startSequenceDone l) s = .next t ∧ t.roster = s.roster ∧
      t.loop l = { s.loop l with line := .running, tx := .released, lowTimer := 0, highTimer := 0,
                                 rx := ⟨.lookForStart, (s.loop l).rx.high, 0⟩ }) ∧
    (∀ samples, (s.loop l).line = .running → (s.loop l).poll = none → (s.loop l).tx = .released →
      ∃ t, exec (.probeReply l samples) s = .next t ∧ t.roster = s.roster ∧
        (t.loop l).lowTimer = (if true ∈ samples then 0 else (s.loop l).lowTimer)) ∧
    (∀ samples, (s.loop l).line = .stuck → (s.loop l).poll = none → (s.loop l).tx = .released →
      ∃ t, exec (.probeReply l samples) s = .next t ∧ t.roster = s.roster ∧
        (t.loop l).highTimer = (if false ∈ samples then 0 else (s.loop l).highTimer))

/-- ENABLE_ON and ENABLE_OFF in a calm part (R52, R53). ENABLE_ON of an OFFLINE entry is refused with IN_USE when another
entry that is not OFFLINE has its loop and wire address, else with RANGE when its loop has 16 entries that are not OFFLINE.
OFF of an OFFLINE entry and ON of any other are written and have no effect (R52). -/
def Obligations.EnableWordMovesTheProbe : Prop :=
  ∀ (s : State) (n addr : Nat) (e : ProbeEntry), s.Calm → s.WordLies .roster n 3 addr → s.roster[n]? = some e →
    (e.state = .offline →
      (∀ m f, m ≠ n → s.roster[m]? = some f → f.state ≠ .offline → (f.loop, f.address) ≠ (e.loop, e.address)) →
      ((indexed 0 s.roster).filter (fun x => decide (x.1 ≠ n ∧ x.2.state ≠ .offline ∧ x.2.loop = e.loop))).length < 16 →
      ∃ t, exec (.enableOn n) s = .next t ∧ t.mem = setWord s.mem addr 1 ∧
        t.roster[n]? = some { e with state := .suspect, miss := 0, good := 0, outcome := .none }) ∧
    (e.state ∈ [.suspect, .online, .lost] →
      ∃ t e', exec (.enableOff n) s = .next t ∧ t.mem = setWord s.mem addr 0 ∧
        t.roster[n]? = some e' ∧ e' = { e with state := .offline, miss := 0, good := 0, alarm := e'.alarm } ∧
        (e.state ≠ .lost → e'.alarm = e.alarm) ∧ (e.state = .lost → e'.alarm.conditions.getLsbD 0 = false) ∧
        ∀ l p, (s.loop l).poll = some p → p.entry = n → (t.loop l).poll = some { p with abandoned := true }) ∧
    (e.state = .barred →
      ∃ u, exec (.enableOff n) s = .next (finish u) ∧ u.mem = s.mem ∧ u.roster = s.roster ∧
        u.path.refusal = ⟨addr, .state, s.dir.worksTime⟩) ∧
    (e.state = .offline →
      let inUse : Prop := ∃ m f, m ≠ n ∧ s.roster[m]? = some f ∧ f.state ≠ .offline ∧ f.loop = e.loop ∧ f.address = e.address
      let full : Prop :=
        16 ≤ ((indexed 0 s.roster).filter (fun x => decide (x.1 ≠ n ∧ x.2.state ≠ .offline ∧ x.2.loop = e.loop))).length
      let refusedWith (reason : Code) : Prop := ∃ u, exec (.enableOn n) s = .next (finish u) ∧ u.mem = s.mem ∧
        u.roster = s.roster ∧ u.host.replies = [⟨.refused, []⟩] ∧ u.path.refusal = ⟨addr, reason, s.dir.worksTime⟩
      (inUse → refusedWith .inUse) ∧ (¬ inUse → full → refusedWith .range)) ∧
    (∀ (c : Instr) (value : Word), (c = .enableOff n ∧ value = 0 ∧ e.state = .offline ∨
        c = .enableOn n ∧ value = 1 ∧ e.state ≠ .offline) →
      ∃ u, exec c s = .next (finish u) ∧ u.mem = setWord s.mem addr value ∧ u.roster = s.roster ∧ u.path.outbox = [] ∧
        u.host.replies = [⟨.done, []⟩])

/-! ### Curing heat, maturity and steam (chapters 4 and 5) -/

/-- CONTROL_STEP (R83): a bed that holds concrete takes the means of its qualifying probes and its sight; a bed in
EMPTY or PREPARED takes no control step. The control step of a CURING bed goes on with its flags and its sub-state (R84,
R85), the advance of its segment to the next one, to the read of a take that waits for the segment's end, or to the profile
end event (R78, R81, R82), and its requested duty, which is proportional inside the band (R86, R105). -/
def Obligations.ControlStepSensesAndDerives : Prop :=
  (∀ s : State, s.dir.lifecycle = .running → ∃ u, exec .controlStep s = .next (finish u) ∧ u.mem = s.mem ∧ ∀ b : Fin 24,
     ((s.cureUnit b).bedState ∈ [.empty, .prepared] → u.cureUnit b = s.cureUnit b) ∧
     ((s.cureUnit b).bedState ∉ [.empty, .prepared] →
       (u.cureUnit b).sighted = decide ((s.recordWord .bed b.val 16).toNat ≤ (s.qualifying (.bed b)).length) ∧
       (s.qualifying (.bed b) = [] → (u.cureUnit b).core = (s.cureUnit b).core ∧ (u.cureUnit b).air = (s.cureUnit b).air) ∧
       (s.qualifying (.bed b) ≠ [] → (u.cureUnit b).core = meanDown ((s.qualifying (.bed b)).map (·.core)) ∧
         (u.cureUnit b).air = meanDown ((s.qualifying (.bed b)).map (·.air))))) ∧
  (∀ (s : State) (b : Fin 24) (c : CureContext) (g : Segment), s.dir.lifecycle = .running →
     (s.cureUnit b).bedState = .curing → (s.cureUnit b).context = some c → c.profile.segments[c.segment - 1]? = some g →
     let limit := (s.mix (s.bedUnit b).mix).overheat
     ∃ u c', exec .controlStep s = .next (finish u) ∧ (u.cureUnit b).context = some c' ∧
       let x := u.cureUnit b
       let gap := c'.setpoint - x.air
       c'.held = c.held ∧ c'.profile = c.profile ∧ c'.blind = !x.sighted ∧
       c'.overheat = (if x.sighted = false then c.overheat else if limit < x.core then true
         else if x.core ≤ limit - 50 then false else c.overheat) ∧
       c'.sub = (if c'.held then .held else if c'.blind then .blind else if c'.overheat then .overheat else .running) ∧
       (c'.duty : Int) = (if c'.sub ≠ .running then 0 else if (c.profile.band : Int) ≤ gap then 200 else if gap ≤ 0 then 0
         else 200 * gap / (c.profile.band : Int)) ∧
       (u.steamBed b).demand = c'.duty ∧
       if c'.sub ∉ [.running, .overheat] ∨ (s.cureUnit b).take.waits = true ∨ c.ended = true then
         c'.segment = c.segment ∧ c'.phase = c.phase ∧ c'.setpoint = c.setpoint ∧ c'.holdDone = c.holdDone ∧
           c'.ramp = c.ramp ∧ c'.ended = c.ended ∧ x.take = (s.cureUnit b).take
       else
         match c.phase with
         | .moving =>
           let by_ : Nat := (c.ramp + g.rate * 10) / 60
           let moved : Int := if g.rate = 0 then g.target
             else if c.setpoint ≤ g.target then min (c.setpoint + by_) g.target else max (c.setpoint - by_) g.target
           c'.setpoint = moved ∧ c'.phase = (if moved = g.target then .holding else .moving) ∧
             c'.ramp = (if moved = g.target then 0 else (c.ramp + g.rate * 10) % 60) ∧ c'.segment = c.segment ∧
             c'.holdDone = c.holdDone ∧ c'.ended = false ∧ x.take = (s.cureUnit b).take
         | .holding =>
           let done := if g.guarded = 1 ∧ x.air < g.target - 20 then c.holdDone else c.holdDone + 10
           c'.setpoint = c.setpoint ∧
             if done < g.hold * 60 then
               c'.segment = c.segment ∧ c'.phase = .holding ∧ c'.holdDone = done ∧ c'.ended = false ∧
                 x.take = (s.cureUnit b).take
             else if (s.cureUnit b).take = .waitingSegmentEnd then
               c'.segment = c.segment ∧ c'.phase = .holding ∧ c'.holdDone = done ∧ c'.ended = false ∧
                 x.take = .readInFlight ∧ .read ⟨.take b, .bed, b.val * 80, 80⟩ ∈ u.path.queue
             else if c.segment < c.profile.count then
               c'.segment = c.segment + 1 ∧ c'.phase = .moving ∧ c'.holdDone = 0 ∧ c'.ramp = 0 ∧ c'.ended = false ∧
                 x.take = (s.cureUnit b).take
             else c'.segment = c.segment ∧ c'.phase = .holding ∧ c'.holdDone = done ∧ c'.ended = true ∧
               x.take = (s.cureUnit b).take ∧
               ((s.bedUnit b).state = .curing → .profileEnd ∈ (u.bedUnit b).deferred))

/-- MATURITY_STEP (R89): a sighted bed that holds concrete adds its core above its datum, saturating; no other bed adds. A
STANDING bed that then meets the release threshold of its mix has release reached handed to it, once, and it is taken at
once where no request is in progress and no event waits (R7, R17); no other bed unit changes. The taking of an event
(R17): release reached leads a STANDING bed to RELEASABLE, in a group of its bed record alone; profile end drops the cure of
a CURING bed, which becomes RELEASABLE where its maturity meets the threshold and STANDING otherwise, and discards its
pending take (R92, R80); in any other state the event is dropped (R7). BED_STATE is posted when the group completes (R4; DEDUCED,
log entry 20), and a discarded take ends then (R80). Which bed's event stands first is the model's choice (log entry 49). -/
def Obligations.MaturityStepAddsTheCore : Prop :=
  (∀ s : State, s.dir.lifecycle = .running → ∃ u, exec .maturityStep s = .next (finish u) ∧ u.mem = s.mem ∧ ∀ b : Fin 24,
    let x := s.bedUnit b
    let reached : Prop := (s.cureUnit b).bedState = .standing ∧ (s.mix x.mix).release ≤ (u.cureUnit b).maturity
    let idle : Prop := x.request = none ∧ x.deferred = []
    (u.cureUnit b).maturity =
      (if (s.cureUnit b).bedState ∉ [.empty, .prepared] ∧ (s.cureUnit b).sighted = true ∧
          (s.mix (s.bedUnit b).mix).datum < (s.cureUnit b).core
        then min ((s.cureUnit b).maturity + ((s.cureUnit b).core - (s.mix (s.bedUnit b).mix).datum).toNat) 4294967295
        else (s.cureUnit b).maturity) ∧
    (reached → .releaseReached ∉ x.deferred → (idle → x.state = .standing) →
      u.bedUnit b = { x with deferred := x.deferred ++ [.releaseReached] } ∧ (idle → .bedEvent b ∈ u.path.outbox)) ∧
    (¬ reached ∨ .releaseReached ∈ x.deferred ∨ (idle ∧ x.state ≠ .standing) → u.bedUnit b = x)) ∧
  (∀ (s : State) (b : Fin 24) (rest : List BedEvent), (s.bedUnit b).deferred = .releaseReached :: rest →
    (s.bedUnit b).state = .standing →
    ∃ after, form (.bedEvent b) s = (after, some ([recordSpan .bed b.val [(18, .ofCount BedState.releasable.toNat)]],
        .bedEvent b (some (.standing, .releasable)))) ∧
      after.bedUnit b = { s.bedUnit b with state := .releasable, deferred := rest } ∧
      after.cureUnit b = { s.cureUnit b with bedState := .releasable } ∧ after.notices = s.notices) ∧
  (∀ (s : State) (b : Fin 24) (rest : List BedEvent), (s.bedUnit b).deferred = .profileEnd :: rest →
    (s.bedUnit b).state = .curing →
    let new : BedState := if (s.mix (s.bedUnit b).mix).release ≤ (s.cureUnit b).maturity then .releasable else .standing
    ∃ after words, form (.bedEvent b) s = (after, some ([recordSpan .bed b.val ([(18, .ofCount new.toNat), (26, 0)] ++ words)],
        .bedEvent b (some (.curing, new)))) ∧
      after.bedUnit b = { s.bedUnit b with state := new, deferred := rest } ∧
      (after.cureUnit b).bedState = new ∧ (after.cureUnit b).context = none ∧
      (after.cureUnit b).maturity = (s.cureUnit b).maturity ∧
      (after.steamBed b).demand = 0 ∧ (after.steamBed b).running = false ∧
      (TakeDiscardable (s.cureUnit b).take ∨ (s.cureUnit b).take = .discarding →
        words = [(52, 0), (53, .ofCount Code.discarded.toNat)] ∧ (after.cureUnit b).take = .discarding) ∧
      (¬ TakeDiscardable (s.cureUnit b).take → (s.cureUnit b).take ≠ .discarding →
        words = [] ∧ (after.cureUnit b).take = (s.cureUnit b).take) ∧
      (TakeDiscardable (s.cureUnit b).take → (s.bed b).alarm.conditions = 0 → after.notices = s.notices.place s.running
        ⟨.profileRefused, .bed, b.val + 1, .ofCount Code.discarded.toNat, s.dir.worksTime⟩)) ∧
  (∀ (s : State) (b : Fin 24) (e : BedEvent) (rest : List BedEvent), (s.bedUnit b).deferred = e :: rest →
    (e = .releaseReached ∧ (s.bedUnit b).state ≠ .standing ∨ e = .profileEnd ∧ (s.bedUnit b).state ≠ .curing) →
    form (.bedEvent b) s = (s.setBedUnit b { s.bedUnit b with deferred := rest }, none)) ∧
  (∀ (s : State) (b : Fin 24) (g : Group) (rest : List Group) (old new : BedState), s.path.answered = g :: rest →
    s.path.slotWait = [] → g.completion = .bedEvent b (some (old, new)) →
    ∃ u, exec .commitGroupComplete s = .next (finish u) ∧ u.path.answered = rest ∧ u.notices = s.notices.place s.running
        ⟨.bedState, .bed, b.val + 1, Word.ofCount (old.toNat + 65536 * new.toNat), s.dir.worksTime⟩ ∧
      u.cureUnit b = { s.cureUnit b with take := if (s.cureUnit b).take = .discarding then .none else (s.cureUnit b).take })

/-- GATE_ENTRY_EXPIRY (R98, R101): the index goes on or wraps to 1, the new entry's duration is left, the valves the
new open set lacks are closed, and the index is handed for writing at each expiry; at a wrap a pending swap begins its
read, unless a swap read is still in flight, where it waits for the next wrap (DEDUCED, log entry 23). -/
def Obligations.GateExpiryMovesTheEntry : Prop :=
  ∀ s : State, s.dir.lifecycle = .running → s.steam.index ≠ 0 →
    let next := if s.steam.entries.length ≤ s.steam.index then 1 else s.steam.index + 1
    ∃ u, exec .gateEntryExpiry s = .next (finish u) ∧ u.steam.index = next ∧
      (∀ e, s.steam.entries[next - 1]? = some e → u.steam.secondsLeft = e.duration ∧
        ∀ b : Fin 24, e.openSet.getLsbD b.val = false → (u.steamBed b).valve = false ∧ (u.steamBed b).closed = true) ∧
      (∀ b : Fin 24, (∃ e, s.steam.entries[next - 1]? = some e ∧ e.openSet.getLsbD b.val = true) →
        u.steamBed b = s.steamBed b) ∧
      (s.dir.dirRead = true → (s.window? .directory).isSome = true →
        ∃ x : RefreshSlot, .refresh x ∈ u.path.queue ∧ x.region = .directory ∧ x.index = 0 ∧
          wordFor x.words 32 = some (.ofCount next)) ∧
      (s.steam.entries.length ≤ s.steam.index → s.steam.swapPending = true → s.steam.swapRead = false →
        u.steam.swapPending = false ∧ u.steam.swapRead = true ∧
        .read ⟨.swap, s.steam.active.other.region, 0, 65⟩ ∈ u.path.queue) ∧
      (s.steam.index < s.steam.entries.length ∨ s.steam.swapRead = true ∨ s.steam.swapPending = false →
        u.steam.swapPending = s.steam.swapPending ∧ u.steam.swapRead = s.steam.swapRead ∧
        u.steam.cancelled = s.steam.cancelled)

/-- TAKE in a calm part (R75, R77): on a CURING bed the take waits for the segment's end, and nothing else of the cure
changes; while a take is pending it is refused with BUSY, and on a bed that is not CURING with STATE. SWAP and CANCEL in a
calm part (R99, R100): refused with SWAP_PENDING and with STATE. -/
def Obligations.TakeSwapAndCancelAreTaken : Prop :=
  (∀ (s : State) (b : Fin 24) (addr : Nat) (c : CureContext), s.Calm → s.WordLies .bed b.val 52 addr →
     (s.cureUnit b).bedState = .curing → (s.cureUnit b).context = some c → (s.cureUnit b).take = .none →
     ∃ t, exec (.take b) s = .next t ∧ t.mem = setWord s.mem addr 1 ∧
       t.cureUnit b = { s.cureUnit b with take := .waitingSegmentEnd }) ∧
  (∀ (s : State) (b : Fin 24) (addr : Nat), s.Calm → s.WordLies .bed b.val 52 addr →
     ((s.cureUnit b).take ≠ .none ∨ (s.cureUnit b).bedState ≠ .curing) →
     ∃ u, exec (.take b) s = .next (finish u) ∧ u.mem = s.mem ∧ u.host = ⟨none, [], [⟨.refused, []⟩]⟩ ∧
       u.cureUnit b = s.cureUnit b ∧
       u.path.refusal = ⟨addr, if (s.cureUnit b).take ≠ .none then .busy else .state, s.dir.worksTime⟩) ∧
  (∀ (s : State) (addr : Nat), s.Calm → s.WordLies .directory 0 23 addr →
     (s.steam.swapPending = false → ∃ t, exec .swap s = .next t ∧ t.steam = { s.steam with swapPending := true } ∧
       t.mem = setWord s.mem addr 1) ∧
     (s.steam.swapPending = true → ∃ u, exec .swap s = .next (finish u) ∧ u.steam = s.steam ∧ u.mem = s.mem ∧
       u.host = ⟨none, [], [⟨.refused, []⟩]⟩ ∧ u.path.refusal = ⟨addr, .swapPending, s.dir.worksTime⟩) ∧
     (s.steam.swapPending = true → ∃ t, exec .cancel s = .next t ∧ t.steam = { s.steam with swapPending := false } ∧
       t.mem = setWord s.mem addr 2) ∧
     (s.steam.swapPending = false → s.steam.swapRead = true → s.steam.cancelled = false →
       ∃ t, exec .cancel s = .next t ∧ t.steam = { s.steam with cancelled := true } ∧ t.mem = setWord s.mem addr 2) ∧
     (s.steam.swapPending = false → (s.steam.swapRead = false ∨ s.steam.cancelled = true) →
       ∃ u, exec .cancel s = .next (finish u) ∧ u.steam = s.steam ∧ u.mem = s.mem ∧ u.host = ⟨none, [], [⟨.refused, []⟩]⟩ ∧
         u.path.refusal = ⟨addr, .state, s.dir.worksTime⟩))

/-- The gate test on the 65 words of a copy (R101): the entry count, and then for each entry its duration and its open set,
in which bit n−1 is bed n (R190). -/
def gateVerdict (record : List Word) : Code :=
  let w (o : Nat) : Word := record.getD o 0
  let count := (w 0).toNat
  let lasts (k : Nat) : Bool := decide (1 ≤ (w (2 * k + 1)).toNat ∧ (w (2 * k + 1)).toNat ≤ 3600)
  let namesBeds (k : Nat) : Bool := decide ((w (2 * k + 2)).toNat < 16777216)
  if 32 < count then .count
  else if ¬ (List.range count).all lasts then .duration
  else if ¬ (List.range count).all namesBeds then .beds else .none

/-- Whether the read handed is a load read whose failure ends loading in SAFE (R185). -/
def failsTheLoad (s : State) (rd : OwnRead) (data : Option (List Word)) : Bool :=
  (match rd.purpose with | .load _ => true | _ => false) && data.isNone && decide (s.load.phase = .regions) &&
  decide (s.dir.lifecycle ≠ .safe)

/-- A swap read returns (R101): a good list becomes the active copy and starts at its entry 1; a cancelled read, a bad
list or a failed read leaves the old list running. OWN_READ_DONE (R41, R6): a failed intake read ends its bed request
with MEMORY and gives the pieces a CAST has set aside back; that with nothing returned there is nothing to hand is the
model's choice (log entry 26). The gate test is that of R101. A read that is handed leaves the hold set, and no other
returned read goes with it (R41), but for the reads of a take and a swap where a failed load read ends loading in SAFE,
which drops them (R185, R95, R109); no run has one of those during LOADING. The read
of a take gives its verdict (R79), and the group of its result installs the pending profile, or releases the segment
that ended (R82); the detail word 0 of PROFILE_TAKEN is the model's choice (log entry 66). -/
def Obligations.ReturnedReadIsHandedToItsOwner : Prop :=
  (∀ record : List Word, record.length = 65 → gateTest record = gateVerdict record) ∧
  (∀ (s : State) (rd : OwnRead) (data : Option (List Word)) (k : Nat) (rest : List ReturnedRead) (x : RecRef),
     s.path.returned = ⟨rd, data, k⟩ :: rest → rd.purpose ≠ .directory → rd.touches x = true →
     s.held x = true ∧
     ((s.withPath { s.path with returned := rest }).held x = false →
       ∃ u, exec .ownReadDone s = .next (finish u) ∧ u.held x = false ∧
         u.path.returned =
           (if failsTheLoad s rd data = true then rest.filter (fun y => !y.read.purpose.droppedInSafe) else rest))) ∧
  (∀ (s : State) (rd : OwnRead) (data : Option (List Word)) (k : Nat) (rest : List ReturnedRead),
     s.path.returned = ⟨rd, data, k⟩ :: rest → rd.purpose = .swap → s.steam.swapRead = true →
     ∃ t, exec .ownReadDone s = .next t ∧ t.steam.swapRead = false ∧ t.steam.swapPending = s.steam.swapPending ∧
       match data with
       | some record =>
         if s.steam.cancelled = false ∧ gateTest record = .none then
           t.steam.active = s.steam.active.other ∧ t.steam.entries = gateEntries record ∧
           t.steam.index = (if gateEntries record = [] then 0 else 1) ∧
           ∀ e es, gateEntries record = e :: es → t.steam.secondsLeft = e.duration
         else t.steam.active = s.steam.active ∧ t.steam.entries = s.steam.entries ∧ t.steam.index = s.steam.index ∧
           t.steam.secondsLeft = s.steam.secondsLeft
       | none => t.steam.active = s.steam.active ∧ t.steam.entries = s.steam.entries ∧ t.steam.index = s.steam.index ∧
           t.steam.secondsLeft = s.steam.secondsLeft) ∧
  (∀ s : State,
     (s.path.returned = [] → exec .ownReadDone s = .next (finish s)) ∧
     ∀ (rd : OwnRead) (k : Nat) (rest : List ReturnedRead) (b : Fin 24) (r : BedRequest),
       s.path.returned = ⟨rd, none, k⟩ :: rest → rd.purpose = .bedIntake b →
       (s.bedUnit b).request = some r → r.stage = .readInFlight →
       ∃ u, exec .ownReadDone s = .next (finish u) ∧ u.path.returned = rest ∧
         u.freeCount = s.freeCount + r.setAside ∧ u.path.outbox = s.path.outbox ++ [.bedRequest b] ∧
         (u.bedUnit b).request = some { r with stage := .waitingSlot, result := .memory, setAside := 0 } ∧
         (u.bedUnit b).state = (s.bedUnit b).state) ∧
  (∀ (s : State) (rd : OwnRead) (data : Option (List Word)) (k : Nat) (rest : List ReturnedRead) (b : Fin 24),
     s.path.returned = ⟨rd, data, k⟩ :: rest → rd.purpose = .take b → (s.cureUnit b).take = .readInFlight →
     ∃ u, exec .ownReadDone s = .next (finish u) ∧ u.path.returned = rest ∧
       u.path.outbox = s.path.outbox ++ [.takeResult b] ∧ u.mem = s.mem ∧
       u.cureUnit b = { s.cureUnit b with take :=
         match data with
         | none => .formed .memory []
         | some record => if profileTest (pendingProfile record) = .none then .formed .taken (pendingWords record)
             else .formed (profileTest (pendingProfile record)) [] }) ∧
  (∀ (s : State) (b : Fin 24) (c : CureContext) (verdict : Code) (pending : List Word),
     (s.cureUnit b).context = some c → (s.cureUnit b).take = .formed verdict pending →
     let result : List (Nat × Word) := [(52, 0), (53, .ofCount verdict.toNat)]
     ∃ u, (u.cureUnit b).take = .resultInFlight ∧
       if verdict = .taken then
         form (.takeResult b) s = (u, some ([recordSpan .bed b.val ([(20, packBytes 1 0), (22, 0)] ++ indexed 32 pending ++ result)],
           .take b)) ∧
         (u.cureUnit b).context = some
           { c with segment := 1, phase := .moving, holdDone := 0, ramp := 0,
                    profile := profileOf (pending.getD 0 0) (pending.getD 1 0) (pending.drop 2) } ∧
         u.notices = s.notices.place s.running ⟨.profileTaken, .bed, b.val + 1, 0, s.dir.worksTime⟩
       else
         form (.takeResult b) s = (u, some ([recordSpan .bed b.val result], .take b)) ∧
         u.notices = s.notices.place s.running ⟨.profileRefused, .bed, b.val + 1, .ofCount verdict.toNat, s.dir.worksTime⟩ ∧
         if c.segment < c.profile.count then
           (u.cureUnit b).context = some { c with segment := c.segment + 1, phase := .moving, holdDone := 0, ramp := 0 }
         else (u.cureUnit b).context = some { c with ended := true } ∧
           (c.ended = false → (s.bedUnit b).state = .curing → .profileEnd ∈ (u.bedUnit b).deferred))

/-- Whether bed `a` stands before bed `b` on the eligible list (R103): by priority, 0 first, and within one priority by bed
number counted cyclically from the rotation start bed. -/
def listedBefore (s : State) (a b : Fin 24) : Bool :=
  let place (k : Fin 24) : Nat := (k.val + 1 + 24 - s.steam.rotation) % 24
  let rank (k : Fin 24) : Nat := (s.steamBed k).priority
  decide (rank a < rank b ∨ rank a = rank b ∧ place a < place b)

/-- ADMISSION_ROUND (R102, R103, R104, R106): a new valve cycle begins, the rotation start advances, a bed that is not
eligible is granted 0, no bed more than its demand, and every valve is on by its grant. The steam draws granted in one
admission round add up to no more than the round's budget (R104). An eligible bed is granted the largest duty, not above
its demand, whose draw is at most what the draws of the eligible beds before it on the list have left of the budget, which
is the smaller of its demand and 200 times what is left divided by its rating (R103, R104). Starved-round counts and armed
flags follow R107. -/
def Obligations.AdmissionRoundGrantsWithinTheBudget : Prop :=
  (∀ (s : State) (lowFire : Bool), s.dir.lifecycle = .running →
     ∃ u, exec (.admissionRound lowFire) s = .next (finish u) ∧ u.steam.lowFire = lowFire ∧ u.steam.valveStep = 0 ∧
       u.steam.rotation = s.steam.rotation % 24 + 1 ∧ ∀ b : Fin 24,
         (u.steamBed b).closed = false ∧ (u.steamBed b).granted ≤ (s.steamBed b).demand ∧
         (s.eligible b = false → (u.steamBed b).granted = 0) ∧
         ((u.steamBed b).valve = true ↔ (s.steamBed b).running = true ∧ s.steam.opens b = true ∧ 0 < (u.steamBed b).granted)) ∧
  (∀ (s : State) (lowFire : Bool), s.dir.lifecycle = .running →
     ∃ u, exec (.admissionRound lowFire) s = .next (finish u) ∧
       ((List.finRange 24).map (fun b => drawOf (s.steamBed b).rating (u.steamBed b).granted)).sum ≤
         (if lowFire then s.dir.budget / 2 else s.dir.budget)) ∧
  (∀ (s : State) (lowFire : Bool), s.dir.lifecycle = .running → 1 ≤ s.steam.rotation → s.steam.rotation ≤ 24 →
     ∃ u, exec (.admissionRound lowFire) s = .next (finish u) ∧ ∀ b : Fin 24, s.eligible b = true →
       let demand := (s.steamBed b).demand
       let rating := (s.steamBed b).rating
       let grant (k : Fin 24) : Nat := (u.steamBed k).granted
       let draw (k : Fin 24) (duty : Nat) : Nat := ((s.steamBed k).rating * duty + 199) / 200
       let before := (List.finRange 24).filter (fun a => s.eligible a && listedBefore s a b)
       let left := (if lowFire then s.dir.budget / 2 else s.dir.budget) - (before.map (fun a => draw a (grant a))).sum
       grant b ≤ demand ∧ draw b (grant b) ≤ left ∧ (∀ d, d ≤ demand → draw b d ≤ left → d ≤ grant b) ∧
       (0 < rating → grant b = min demand (200 * left / rating))) ∧
  (∀ (s : State) (lowFire : Bool), s.dir.lifecycle = .running →
     ∃ u, exec (.admissionRound lowFire) s = .next (finish u) ∧ ∀ b : Fin 24,
       let x := s.steamBed b
       let y := u.steamBed b
       (s.eligible b = false → y.starved = x.starved ∧ y.armed = x.armed) ∧
       (s.eligible b = true → y.granted = x.demand → y.starved = 0 ∧ y.armed = true) ∧
       (s.eligible b = true → y.granted < x.demand → y.starved = min (x.starved + 1) 30 ∧
         y.armed = (x.armed && decide (y.starved ≠ 30))))

/-- VALVE_STEP (R106): the valve step counts, and a valve goes off at the step equal to its grant. That the step counts
where no valve cycle runs, and holds at 199, is the model's choice (log entry 58). -/
def Obligations.ValveStepTurnsValvesOff : Prop :=
  ∀ s : State, ∃ u, exec .valveStep s = .next (finish u) ∧ u.steam.valveStep = min (s.steam.valveStep + 1) 199 ∧
    ∀ b : Fin 24, u.steamBed b = { s.steamBed b with valve := (u.steamBed b).valve } ∧
      ((u.steamBed b).valve = true → (s.steamBed b).valve = true ∧ u.steam.valveStep < (s.steamBed b).granted) ∧
      ((s.steamBed b).valve = true → s.valveWanted b = true → u.steam.valveStep < (s.steamBed b).granted →
        (u.steamBed b).valve = true)

/-! ### Piece stock (chapter 6) -/

/-- SCRAP and FREE in a calm part (R113, R114): the piece is being freed; a scrapped piece of the stock leaves the top
of its slot, whose claim list passes the claim test over the stack without it, and a scrapped piece of a bed leaves the
bed's list. Any other is refused with STATE and changes nothing (R113). The request is judged again and its result formed
when the Path Unit hands it (DEDUCED, log entry 14). When the result group has completed, the request ends: an accepted one's
piece is FREE, counted, and no longer a use of its mix (R112, R19), and any other result is posted with PIECE_RESULT, at that
completion, a moment R114 does not name (DEDUCED, log entry 20). The claim test, of a list and of a slot, is that of R120. -/
def Obligations.ScrapAndFreeFreeThePiece : Prop :=
  (∀ (len : Nat → Nat) (max : Nat) (stack : List Nat) (peak : Nat),
     claimTest len max ⟨stack, peak⟩ [] = .passes ⟨stack, peak⟩ ∧
     ∀ (c : Claim) (rest : List Claim),
       (c.op = .pick → claimTest len max ⟨stack, peak⟩ (c :: rest) =
         if stack.head? = some c.piece then claimTest len max ⟨stack.tail, peak⟩ rest else .fails c) ∧
       (c.op = .place → claimTest len max ⟨stack, peak⟩ (c :: rest) =
         if stack.length < max ∧ ∀ top, stack.head? = some top → len c.piece ≤ len top then
           claimTest len max ⟨c.piece :: stack, Nat.max peak (stack.length + 1)⟩ rest
         else .fails c)) ∧
  (∀ (s : State) (x : Slot) (stack : List Nat), s.testSlot x stack =
     claimTest (fun n => match s.piece? n with | some p => p.length | none => 0) x.maxHeight ⟨stack.reverse, stack.length⟩ x.claims) ∧
  (∀ (s : State) (g : Group) (rest : List Group) (n : Nat) (p : Piece) (r : PieceRequest),
     s.path.answered = g :: rest → s.path.slotWait = [] → g.completion = .pieceResult n → s.piece? n = some p →
     p.request = some r →
     ∃ u, exec .commitGroupComplete s = .next (finish u) ∧ u.path.answered = rest ∧
       if r.result = .accepted then
         u.piece? n = some { p with state := .free, ready := false, request := none } ∧ u.freeCount = s.freeCount + 1 ∧
         u.notices = s.notices ∧
         ∀ m, 1 ≤ m → m ≤ 16 → (u.mix m).useCount = (s.mix m).useCount - (if p.mix = m then 1 else 0)
       else
         u.piece? n = some { p with request := none } ∧ u.freeCount = s.freeCount ∧ u.mixes = s.mixes ∧
         u.notices = s.notices.place s.running
           ⟨.pieceResult, .piece, n, Word.ofCount (r.code.toNat + 65536 * r.result.toNat), s.dir.worksTime⟩) ∧
  ∀ (s : State) (n addr : Nat) (p : Piece), s.Calm → s.WordLies .piece (n - 1) 9 addr → s.piece? n = some p →
    p.request = none →
    (∀ x, p.state = .inStock → p.claim = 0 → s.slot? p.slot = some x → x.stack.getLast? = some n →
      (s.testSlot x x.stack.dropLast).passed = true →
      ∃ t q, exec (.scrap n) s = .next t ∧ t.slot? p.slot = some { x with stack := x.stack.dropLast } ∧ t.piece? n = some q ∧
        q.state = .freeing ∧ q.slot = 0 ∧ q.hold = 0) ∧
    (∀ b : Fin 24, p.state = .inBed → p.claim = 0 → p.bed = b.val + 1 → n ∈ (s.bedUnit b).inBed →
      ∃ t q, exec (.scrap n) s = .next t ∧ (t.bedUnit b).inBed = (s.bedUnit b).inBed.filter (fun m => decide (m ≠ n)) ∧
        t.piece? n = some q ∧ q.state = .freeing ∧
        (t.bedUnit b).state = (if (s.bedUnit b).state = .detensioned ∧ (t.bedUnit b).inBed = [] then .empty
          else (s.bedUnit b).state)) ∧
    (p.state = .dispatched →
      ∃ t q, exec (.free n) s = .next t ∧ t.piece? n = some q ∧ q.state = .freeing ∧ n ∉ t.stock.dispatched) ∧
    (∀ c : Instr,
      (c = .scrap n ∧ (p.claim ≠ 0 ∨ p.state ∉ [.inBed, .inStock] ∨ ∃ x, p.state = .inStock ∧ s.slot? p.slot = some x ∧
          (x.stack.getLast? ≠ some n ∨ (s.testSlot x x.stack.dropLast).passed = false)) ∨
        c = .free n ∧ p.state ≠ .dispatched) →
      ∃ u, exec c s = .next (finish u) ∧ u.mem = s.mem ∧ u.stock = s.stock ∧ u.beds = s.beds ∧
        u.host.replies = [⟨.refused, []⟩] ∧ u.path.refusal = ⟨addr, .state, s.dir.worksTime⟩)

/-- YARD_MATURITY_STEP (R127, R128): with a yard temperature each piece IN_STOCK adds it above its datum, saturating,
and a piece that reaches its dispatch threshold is marked ready; any other piece adds nothing. -/
def Obligations.YardStepAddsToTheStock : Prop :=
  ∀ s : State, s.dir.lifecycle = .running → ∃ u, exec .yardMaturityStep s = .next (finish u) ∧ u.mem = s.mem ∧
    ∀ n p, s.piece? n = some p → ∃ q, u.piece? n = some q ∧
      (p.state ≠ .inStock → q = p) ∧
      (p.state = .inStock →
        q.maturity = (match s.yardTemperature with
          | some t => if (s.mix p.mix).datum < t then min (p.maturity + (t - (s.mix p.mix).datum).toNat) 4294967295 else p.maturity
          | none => p.maturity) ∧
        q.ready = (p.ready || decide ((s.mix p.mix).dispatch ≤ q.maturity)) ∧
        q = { p with maturity := q.maturity, ready := q.ready })

/-! ### Runway tracking and crane permits (chapter 7) -/

/-! ### Grants (R136 to R140) -/

/-- The zone at which a homed crane stands, when it is known and not below 0. -/
def homedAt (s : State) (c : Fin 2) : Option Nat :=
  match (s.mon c).posZone with
  | some z => if (s.mon c).homed = true ∧ 0 ≤ z then some z.toNat else none
  | none => none

/-- The extent of a crane (R136): its span; with an empty span, the zone of a homed crane on the runway; else none. -/
def extentOf (s : State) (c : Fin 2) : Option ZoneRun :=
  (s.mon c).span.or (((homedAt s c).filter (fun z => decide (z < s.dir.zones))).map (fun z => ⟨z, z⟩))

/-- Whether crane `c`, standing at `place`, is granted these targets beside the other crane's extent (R136, R138): it stands
on the runway with every target on it, and the run over its zone and the targets stays two zones from that extent. -/
def fitsBeside (s : State) (c : Fin 2) (place : Option Nat) (targets : List Nat) (other : Option ZoneRun) : Bool :=
  match place with
  | none => false
  | some z =>
    let run := runOver z targets
    decide (z < s.dir.zones) && targets.all (fun t => decide (t < s.dir.zones)) &&
    (match other with
     | none => true
     | some e => if c = 0 then decide (run.hi + 2 ≤ e.lo) else decide (e.hi + 2 ≤ run.lo))

/-- A span after its shrink (R140): the run over the crane's zone and those targets that lie inside it, where the zone does. -/
def shrunkTo (span : Option ZoneRun) (place : Option Nat) (targets : List Nat) : Option ZoneRun :=
  span.map (fun r =>
    let inside (z : Nat) : Bool := decide (r.lo ≤ z ∧ z ≤ r.hi)
    match place with
    | some z => if inside z = true then runOver z (targets.filter inside) else r
    | none => r)

/-- The other crane's extent when a request of crane `c` for these targets is examined: the span of `c` shrinks first to what
its targets need of it, and where that has changed it, a request that waits for the other crane is examined first, and
granted if it fits beside the shrunk span (R138, R140). -/
def otherExtent (s : State) (c : Fin 2) (targets : List Nat) : Option ZoneRun :=
  let o := otherCrane c
  let own := shrunkTo (s.mon c).span (homedAt s c) targets
  match (s.mon o).request, homedAt s o with
  | some wanted, some z =>
    if own ≠ (s.mon c).span ∧ fitsBeside s o (some z) wanted own = true then some (runOver z wanted) else extentOf s o
  | _, _ => extentOf s o

/-- Whether a request of crane `c` for these targets is granted as it is made (R138). -/
def grantedAtOnce (s : State) (c : Fin 2) (targets : List Nat) : Bool :=
  fitsBeside s c (homedAt s c) targets (otherExtent s c targets)

/-- A request that waits for a crane whose active move is RESERVING asks for that move's remaining targets (R157). -/
abbrev RequestsItsTargets (s : State) (c : Fin 2) : Prop :=
  ∀ wanted j, (s.mon c).request = some wanted → s.activeMove c = some j → (s.move j).state = .reserving →
    s.targetsOf (s.move j) = wanted

/-- Where move `m` goes when it travels, by its kind and its load (R157). -/
abbrev travelPhase (m : Move) (loaded : Bool) : MoveState :=
  if m.kind = .park then .toPark else if loaded then .toPlace else .toPick

/-- Move `m` of entry `i` travels (R157): its phase by its kind and its load, its travel timer at 0, its GOTO in the cab's
instruction slot or taken by the shifter (R160), and its targets inside the crane's reserved span (R138). -/
abbrev Travels (u : State) (c : Fin 2) (i : Fin 16) (m : Move) (loaded : Bool) : Prop :=
  let atPlace : Bool := decide (m.kind = .park) || loaded
  let goto : Instruction := ⟨.goto, m.number % 256, if atPlace then m.placeZone else m.pickZone.getD 0, m.piece,
    if m.kind = .park then .park else if loaded then .place else .pick⟩
  (u.move i).state = travelPhase m loaded ∧ (u.move i).travelTimer = some 0 ∧ (u.move i).waitTimer = none ∧
  (u.move i).arrived = false ∧
  ((u.cab c).slot = some goto ∨ (u.cab c).slot = none ∧ (u.cab c).shifter = some ⟨goto, goto.block⟩) ∧
  ∃ r, (u.mon c).span = some r ∧ r.has (m.placeZone : Int) = true ∧
    (atPlace = false → ∀ z, m.pickZone = some z → r.has (z : Int) = true)

/-- Move `m` travels on a grant of its targets: the span is the run over the crane's zone `place` and the targets, and the
request is gone (R138). -/
abbrev TravelsOnGrant (u : State) (c : Fin 2) (i : Fin 16) (m : Move) (loaded : Bool) (place : Option Nat)
    (targets : List Nat) : Prop :=
  Travels u c i m loaded ∧ (u.mon c).request = none ∧ ∀ z, place = some z → (u.mon c).span = some (runOver z targets)

/-- COUNT_EDGE and INDEX_MARKER (R133, R134): an edge steps the count, in 24 bits; the edge behind an index mark homes a
crane armed for homing at its index reference; a homed crane whose count lies more than 8 off loses its position.
ILLEGAL_TRANSITION (R133): the count stands, and a detecting crane faults and loses its position. An edge that brings a
crane to a new zone with a request waiting for each crane has the crane's own request examined first, and then the other
crane's against the span that this has left (R135, R138, R139). One after which each of two RESERVING cranes wants a
span over the other's zone posts RUNWAY_BLOCKED, also where the same edge leads to an OVERRUN (R168, R135). -/
def Obligations.EncoderEdgesMoveTheCount : Prop :=
  (∀ (s : State) (c : Fin 2) (dir : Direction),
     let step : Int := match dir with | .east => 1 | .west => -1
     let m := s.mon c
     let next := wrap24 (m.count + step)
     (m.indexSeen = false → ∃ u, exec (.countEdge c dir) s = .next (finish u) ∧ (u.mon c).count = next ∧
       (u.mon c).homed = m.homed ∧ (u.mon c).chanA = (match dir with | .east => !m.chanB | .west => m.chanB) ∧
       (u.mon c).chanB = (match dir with | .east => m.chanA | .west => !m.chanA) ∧
       (m.homed = true → (u.mon c).posZone = some ((next - m.origin) / (m.zoneWidth : Int)))) ∧
     (m.indexSeen = true → m.homingArmed = true → ∃ u, exec (.countEdge c dir) s = .next (finish u) ∧
       (u.mon c).count = m.indexRef ∧ (u.mon c).homed = true ∧ (u.mon c).homingArmed = false ∧
       (u.mon c).indexSeen = false ∧ (u.mon c).posZone = some ((m.indexRef - m.origin) / (m.zoneWidth : Int))) ∧
     (m.indexSeen = true → m.homingArmed = false → m.homed = true → 8 < (next - m.indexRef).natAbs →
       ∃ u, exec (.countEdge c dir) s = .next (finish u) ∧ (u.mon c).homed = false ∧ (u.mon c).homingArmed = true ∧
         (u.mon c).posZone = none ∧ (u.mon c).armed = false ∧ .encoder ∈ (u.mon c).latched) ∧
     (m.detecting = true → ∃ u, exec (.indexMarker c none) s = .next (finish u) ∧ (u.mon c).indexSeen = true ∧
       (u.mon c).count = m.count) ∧
     (m.detecting = true → m.homingArmed = true → ∃ u, exec (.indexMarker c (some dir)) s = .next (finish u) ∧
       (u.mon c).homed = true ∧ (u.mon c).count = m.indexRef)) ∧
  (∀ (s : State) (c : Fin 2), ∃ u, exec (.illegalTransition c) s = .next (finish u) ∧
     (u.mon c).count = (s.mon c).count ∧ (u.mon c).chanA = !(s.mon c).chanA ∧ (u.mon c).chanB = !(s.mon c).chanB ∧
     ((s.mon c).detecting = true → (u.mon c).homed = false ∧ (u.mon c).indexSeen = false ∧ (u.mon c).homingArmed = true ∧
       (u.mon c).posZone = none ∧ (u.mon c).armed = false ∧ .encoder ∈ (u.mon c).latched) ∧
     ((s.mon c).detecting = false → (u.mon c).homed = (s.mon c).homed ∧ (u.mon c).armed = (s.mon c).armed)) ∧
  (∀ (s : State) (c : Fin 2) (dir : Direction) (i j : Fin 16) (wanted others : List Nat) (z : Nat),
     let o := otherCrane c
     let m := s.mon c
     let next := wrap24 (m.count + (match dir with | .east => 1 | .west => -1))
     m.indexSeen = false → m.homed = true → (next - m.origin) / (m.zoneWidth : Int) = (z : Int) → m.posZone ≠ some (z : Int) →
     z < s.dir.zones → (∀ r, m.span = some r → r.has (z : Int) = true) →
     (∀ r, (s.mon o).span = some r → r.has (z : Int) = false) →
     ActiveIs s c i → (s.move i).state = .reserving → m.request = some wanted → s.targetsOf (s.move i) = wanted →
     ActiveIs s o j → (s.move j).state = .reserving → (s.mon o).request = some others → s.targetsOf (s.move j) = others →
     let served := fitsBeside s c (some z) wanted (extentOf s o)
     let own : Option ZoneRun :=
       if served = true then some (runOver z wanted) else (shrunkTo m.span (some z) m.targets).or (some ⟨z, z⟩)
     ∃ u, exec (.countEdge c dir) s = .next (finish u) ∧ (u.mon c).posZone = some (z : Int) ∧
       (if served = true then TravelsOnGrant u c i (s.move i) (s.isLoaded (s.move i)) (some z) wanted
        else (u.move i).state = .reserving ∧ (u.mon c).request = some wanted) ∧
       (if fitsBeside s o (homedAt s o) others own = true then
          TravelsOnGrant u o j (s.move j) (s.isLoaded (s.move j)) (homedAt s o) others
        else (u.move j).state = .reserving ∧ (u.mon o).request = some others)) ∧
  (∀ (s : State) (c : Fin 2) (dir : Direction) (i j : Fin 16) (wanted others : List Nat) (z x : Int),
     let o := otherCrane c
     let m := s.mon c
     let spans (place : Int) (targets : List Nat) (zone : Int) : Prop :=
       (place ≤ zone ∨ ∃ w ∈ targets, (w : Int) ≤ zone) ∧ (zone ≤ place ∨ ∃ w ∈ targets, zone ≤ (w : Int))
     m.indexSeen = false → m.homed = true →
     (wrap24 (m.count + (match dir with | .east => 1 | .west => -1)) - m.origin) / (m.zoneWidth : Int) = z →
     m.posZone ≠ some z → (s.cab o).posZone = some x →
     ActiveIs s c i → (s.move i).state = .reserving → m.request = some wanted →
     ActiveIs s o j → (s.move j).state = .reserving → (s.mon o).request = some others →
     spans z wanted x → spans x others z → (s.cab 0).blockedMark = false → (s.cab 1).blockedMark = false →
     let number (k : Fin 2) : Nat := (s.cab k).queue.headD 0
     ∃ u, exec (.countEdge c dir) s = .next (finish u) ∧ ∃ n ∈ u.notices.writeList ++ u.notices.waiting,
       n.kind = .runwayBlocked ∧ n.cls = .runway ∧ n.detail = .ofCount (number 0 % 65536 + 65536 * (number 1 % 65536)))

/-- FEEDBACK_CHANGE and OFF_TIMER_EXPIRY (R145, R143): both directions of one axis active are a CONFLICT, a feedback
active against a permit off for more than 2 s is a DISOBEY; each disarms a detecting crane and latches. CAB_STOP and
YARD_STOP (R141, R143, R145): an active stop turns off every permit; an armed detecting crane becomes UNARMED with
STOP latched. The yard stop does so to both cranes. -/
def Obligations.FaultsAndStopsDisarmTheCrane : Prop :=
  (∀ (s : State) (c : Fin 2) (p : Permit), (s.mon c).detecting = true →
     (∀ active, ∃ u, exec (.feedbackChange c p active) s = .next (finish u) ∧ permitOf (u.mon c).feedback p = active ∧
       (active = true → permitOf (s.mon c).feedback (oppositePermit p) = true →
         (u.mon c).armed = false ∧ .conflict ∈ (u.mon c).latched) ∧
       (active = true → permitOf (s.mon c).permits p = false → 2000 < permitOf (s.mon c).offTimers p →
         (u.mon c).armed = false ∧ .disobey ∈ (u.mon c).latched)) ∧
     (permitOf (s.mon c).permits p = false → permitOf (s.mon c).feedback p = true →
       ∃ u, exec (.offTimerExpiry c p) s = .next (finish u) ∧ (u.mon c).armed = false ∧ .disobey ∈ (u.mon c).latched)) ∧
  (∀ s : State,
     (∀ c : Fin 2, ∃ u, exec (.cabStop c true) s = .next (finish u) ∧ (u.mon c).cabStop = true ∧
       (∀ p ∈ allPermits, permitOf (u.mon c).permits p = false) ∧
       ((s.mon c).armed = true → (s.mon c).detecting = true → (u.mon c).armed = false ∧ .stop ∈ (u.mon c).latched)) ∧
     (∀ c : Fin 2, ∃ u, exec (.cabStop c false) s = .next (finish u) ∧ (u.mon c).cabStop = false) ∧
     (∃ u, exec (.yardStop true) s = .next (finish u) ∧ u.yardStop = true ∧ ∀ c : Fin 2,
       (∀ p ∈ allPermits, permitOf (u.mon c).permits p = false) ∧
       ((s.mon c).armed = true → (s.mon c).detecting = true → (u.mon c).armed = false ∧ .stop ∈ (u.mon c).latched)) ∧
     (∃ u, exec (.yardStop false) s = .next (finish u) ∧ u.yardStop = false))

/-- What evaluating the permits of crane `c` leaves of them, from the block timers `old` (R141, R142): one no longer
wanted or allowed is off, with the block timer of its opposite and its own off timer started; one that is wanted and
allowed is on if it was on, or if its block timer is at 0. -/
abbrev PermitsEvaluated (s u : State) (c : Fin 2) (old : Permit → Nat) : Prop :=
  let m := s.mon c
  ∀ q : Permit,
    let allowed (x : Permit) : Bool := s.permitsAllowed c && s.permitWanted c x
    let goesOff (x : Permit) : Bool := permitOf m.permits x && !allowed x
    let timer : Nat := if goesOff (oppositePermit q) = true then m.deadTime * 100 else old q
    permitOf (u.mon c).permits q = (allowed q && (permitOf m.permits q || decide (timer = 0))) ∧
    permitOf (u.mon c).blockTimers q = timer ∧
    permitOf (u.mon c).offTimers q = (if goesOff q = true then 0 else permitOf m.offTimers q)

/-- Whether a permit of crane `c` is wanted, by the terms of R141. -/
abbrev WantedByTable (s : State) (c : Fin 2) (p : Permit) : Prop :=
  let m := s.mon c
  let leads (step : Int) : Prop := ∃ (r : ZoneRun) (z : Int), m.span = some r ∧ m.posZone = some z ∧
    (r.lo : Int) ≤ z + step ∧ z + step ≤ (r.hi : Int) ∧ m.phase ∈ [.move .toPick, .move .toPlace, .move .toPark]
  match p with
  | .travelEast => m.span = none ∧ c = 1 ∨ leads 1
  | .travelWest => m.span = none ∧ c = 0 ∨ leads (-1)
  | .hoistLower => m.phase = .move .atPick ∨ m.phase = .move .atPlace
  | .hoistRaise => True

/-- Whether the permits of crane `c` are allowed, by the terms of R141. -/
abbrev AllowedByTable (s : State) (c : Fin 2) : Prop :=
  (s.mon c).armed = true ∧ (s.mon c).cabStop = false ∧ s.yardStop = false ∧ s.dir.lifecycle = .running

/-- BLOCK_TIMER_EXPIRY (R142): the timer is at 0, and the permits are evaluated. A permit that is off and whose block
timer is above 0 stays off (R142). CAB_STOP (R141, R142): each permit that was on turns off, and the block timer of its
opposite and its own off timer start. When a permit is wanted and when the permits are allowed is R141's: of a permit that
an evaluation leaves on, both hold. -/
def Obligations.PermitsWaitForTheirBlockTimers : Prop :=
  (∀ (s : State) (c : Fin 2) (p : Permit), (s.permitWanted c p = true ↔ WantedByTable s c p) ∧
     (s.permitsAllowed c = true ↔ AllowedByTable s c) ∧
     (permitOf ((evalPermits c s).mon c).permits p = true → AllowedByTable (evalPermits c s) c ∧ WantedByTable (evalPermits c s) c p)) ∧
  (∀ (s : State) (c : Fin 2) (p : Permit),
     ∃ u, exec (.blockTimerExpiry c p) s = .next (finish u) ∧
       PermitsEvaluated s u c (fun q => if q = p then 0 else permitOf (s.mon c).blockTimers q) ∧
       ∀ q, q ≠ p → permitOf (s.mon c).permits q = false → 0 < (s.mon c).deadTime →
         0 < permitOf (s.mon c).blockTimers q → permitOf (u.mon c).permits q = false) ∧
  (∀ (s : State) (c : Fin 2), PermitsEvaluated s (evalPermits c s) c (permitOf (s.mon c).blockTimers)) ∧
  (∀ (s : State) (c : Fin 2), ∃ u, exec (.cabStop c true) s = .next (finish u) ∧ ∀ q, permitOf (u.mon c).permits q = false ∧
     (permitOf (s.mon c).permits q = true →
       permitOf (u.mon c).blockTimers (oppositePermit q) = (s.mon c).deadTime * 100 ∧ permitOf (u.mon c).offTimers q = 0))

/-- ARM in a calm part (R147, R148): with no stop active and the alarm ACKED or CLEAR the crane is ARMED; otherwise
the write is refused at the bus with the first reason that applies. -/
def Obligations.ArmNeedsStopsAndAlarmClear : Prop :=
  ∀ (s : State) (c : Fin 2) (addr : Nat), s.Calm → s.WordLies .crane c.val 4 addr →
    ∃ u, exec (.arm c) s = .next (finish u) ∧
      if s.stopActive c = true then u.mem = s.mem ∧ u.path.refusal = ⟨addr, .stopActive, s.dir.worksTime⟩ ∧
        u.cranes = s.cranes
      else if (s.crane c).alarm.state = .acked ∨ (s.crane c).alarm.state = .clear then
        u.mem = setWord s.mem addr 1 ∧ (u.mon c).armed = true ∧ (u.mon c).armResult = .armed ∧ (u.cab c).armed = true ∧
          u.host.replies = [⟨.done, []⟩]
      else u.mem = s.mem ∧ u.path.refusal = ⟨addr, .faultLatched, s.dir.worksTime⟩ ∧ u.cranes = s.cranes

/-! ### Crane moves (chapter 8) -/

/-- The move of entry `i` has ended ABORTED for a reason and has left its crane's queue; its claims are released, and a
QUEUED move that the release has named has ended ABORTED with REPLANNED and left its own (R125, R170). -/
abbrev EndedAborted (s u : State) (i : Fin 16) (reason : Code) : Prop :=
  (u.move i).state = .aborted ∧ (u.move i).endReason = reason ∧ (u.move i).waitTimer = none ∧
  (u.move i).travelTimer = none ∧ (s.move i).number ∉ (u.cab (s.move i).crane).queue ∧
  ((s.move i).kind ≠ .park →
    u.stock = (releaseMove (s.move i).number (s.move i).piece s).1.stock ∧
    ∀ n ∈ (releaseMove (s.move i).number (s.move i).piece s).2, ∀ j, s.entryOf n = some j → j ≠ i → (s.move j).state = .queued →
      (u.move j).state = .aborted ∧ (u.move j).endReason = .replanned ∧ n ∉ (u.cab (s.move j).crane).queue)

/-- The checks of R121 on a destination slot whose planned stack, top first, is `planned` (8 to 11): `length` is the piece's
length class, and `full` says that a list the move would join holds 8 claims. -/
def placeChecks (s : State) (length : Nat) (x : Slot) (planned : List Nat) (full : Bool) : Code :=
  if x.isOpen = false then .slotClosed
  else if planned.length = x.maxHeight then .noRoom
  else if planned.head?.any (fun top => decide (s.lengthOf top < length)) = true then .length
  else if full then .claimsFull else .none

/-- The claim test of a slot passes and leaves this planned stack, top first (R120). -/
abbrev PlannedIs (s : State) (x : Slot) (planned : List Nat) : Prop :=
  ∃ peak, claimTest s.lengthOf x.maxHeight (startTest x.stack) x.claims = .passes ⟨planned, peak⟩

/-- INTAKE in a calm part (R152, R153): the entry at the next intake index is taken in and its record read; any other
entry is refused with ORDER, and while an intake is in progress its own entry with BUSY. An order that passes every check
becomes a QUEUED move at the tail of its crane's queue (R153, R154), its PICK claim joins the tail of its source slot's list
and its PLACE claim that of its destination slot's, and its piece's claiming move becomes the move (R121); any other is
rejected with its reason. The checks of an order in their order (R153), the crane chosen for it
(R153), and the checks of a claim request in theirs (R121). Which claim lists fail the claim test (R120) is stated with
ScrapAndFreeFreeThePiece. -/
def Obligations.IntakeTakesInTheOrder : Prop :=
  (∀ (s : State) (n addr : Nat), s.Calm → s.WordLies .moveRing n 7 addr → s.moves.intake = none →
     (n = s.moves.nextIndex → ∃ t, exec (.intake n) s = .next t ∧ t.mem = setWord s.mem addr 1 ∧
       t.moves.intake = some ⟨n, .readInFlight, .none, 0, none⟩ ∧ t.held ⟨.moveRing, n⟩ = true) ∧
     (n ≠ s.moves.nextIndex → ∃ u, exec (.intake n) s = .next (finish u) ∧ u.mem = s.mem ∧ u.moves = s.moves ∧
       u.path.refusal = ⟨addr, .order, s.dir.worksTime⟩)) ∧
  (∀ (s : State) (n addr : Nat) (k : Intake), s.Calm → s.WordLies .moveRing n 7 addr → s.moves.intake = some k →
     ∃ u, exec (.intake n) s = .next (finish u) ∧ u.mem = s.mem ∧ u.moves = s.moves ∧ u.host.replies = [⟨.refused, []⟩] ∧
       u.path.refusal = ⟨addr, if n = k.entry then .busy else .order, s.dir.worksTime⟩) ∧
  (∀ (s : State) (rd : OwnRead) (record : List Word) (k : Nat) (rest : List ReturnedRead) (x : Intake),
     s.path.returned = ⟨rd, some record, k⟩ :: rest → rd.purpose = .moveIntake x.entry → s.moves.intake = some x →
     x.stage = .readInFlight →
     let o := Sys2Proof.Machine.orderOf record
     (∀ kind i, s.orderVerdict o = .none → MoveKind.ofNat? o.kind = some kind → s.freeEntry = some i →
       ∃ u, exec .ownReadDone s = .next (finish u) ∧
         u.moves.intake = some { x with stage := .waitingSlot, result := .accepted, order := o.number, table := some i } ∧
         (u.move i).number = o.number ∧ (u.move i).kind = kind ∧ (u.move i).state = .queued ∧ (u.move i).accepted = false ∧
         (u.move i).serial = s.moves.serial ∧ u.moves.serial = s.moves.serial + 1 ∧
         (u.cab (s.chooseCrane o)).queue = (s.cab (s.chooseCrane o)).queue ++ [o.number] ∧
         (kind = .park → u.stock = s.stock) ∧
         (∀ p, kind ≠ .park → s.piece? o.piece = some p → u.piece? o.piece = some { p with claim := o.number } ∧
           (∀ y, kind ∈ [.restack, .dispatch] → s.slot? p.slot = some y →
             u.slot? p.slot = some { y with claims := y.claims ++ [⟨o.number, .pick, o.piece⟩] }) ∧
           (∀ y, kind ∈ [.lift, .restack] → s.slot? o.dest = some y →
             u.slot? o.dest = some { y with claims := y.claims ++ [⟨o.number, .place, o.piece⟩] }))) ∧
     (s.orderVerdict o ≠ .none →
       ∃ u, exec .ownReadDone s = .next (finish u) ∧ u.stock = s.stock ∧ u.cranes = s.cranes ∧
         u.moves.intake = some { x with stage := .waitingSlot, result := s.orderVerdict o, order := o.number })) ∧
  (∀ (s : State) (o : Sys2Proof.Machine.Order),
     (3 < o.kind → s.orderVerdict o = .badOrder) ∧
     (∀ kind : MoveKind, o.kind = kind.toNat → s.orderVerdict o =
       if o.number = 0 ∨ 65535 < o.number ∨ o.waitLimit < 1 ∨ 3600 < o.waitLimit ∨ o.travelLimit < 10 ∨ 900 < o.travelLimit then
         .badOrder
       else if ∃ i : Fin 16, (s.move i).number = o.number ∧ (s.move i).state ∉ [.empty, .done, .aborted] then .duplicate
       else if o.choice ∉ [0, 1, 2] ∨ kind = .park ∧ o.choice = 2 then .badCrane
       else if kind = .park ∧ s.dir.zones ≤ o.dest then .badDest
       else if ∀ i : Fin 16, (s.move i).state ∉ [.empty, .done, .aborted] then .tableFull
       else if 8 ≤ (s.cab (s.chooseCrane o)).queue.length then .queueFull
       else if kind = .park then .none else s.claimVerdict kind o.piece o.dest) ∧
     (o.choice = 0 → s.chooseCrane o = 0) ∧ (o.choice = 1 → s.chooseCrane o = 1) ∧
     (o.choice = 2 → (∀ p, s.piece? o.piece = some p → p.state = .free) → s.chooseCrane o = 0) ∧
     (∀ p, o.choice = 2 → s.piece? o.piece = some p → p.state ≠ .free →
       let far (z : Int) : Nat := (z - (p.zone : Int)).natAbs
       let known (c : Fin 2) (z : Int) : Prop := (s.cab c).homed = true ∧ (s.cab c).posZone = some z
       let unknown (c : Fin 2) : Prop := (s.cab c).homed = false ∨ (s.cab c).posZone = none
       (∀ a b, known 0 a → known 1 b → s.chooseCrane o = if far b < far a then 1 else 0) ∧
       (∀ b, unknown 0 → known 1 b → s.chooseCrane o = 1) ∧ (unknown 1 → s.chooseCrane o = 0))) ∧
  (∀ (s : State) (n dest : Nat), s.piece? n = none → ∀ kind, s.claimVerdict kind n dest = .noPiece) ∧
  (∀ (s : State) (n dest : Nat) (p : Piece), s.piece? n = some p →
     (s.slot? dest = none → s.claimVerdict .lift n dest =
       if p.state ≠ .inBed then .noPiece else if p.claim ≠ 0 then .pieceBusy else .badDest) ∧
     (∀ x planned, s.slot? dest = some x → PlannedIs s x planned → s.claimVerdict .lift n dest =
       if p.state ≠ .inBed then .noPiece else if p.claim ≠ 0 then .pieceBusy
       else if s.liftGate n = false then .notLiftable
       else placeChecks s p.length x planned (decide (8 ≤ x.claims.length))) ∧
     (∀ y top, s.slot? p.slot = some y → PlannedIs s y top →
       s.claimVerdict .dispatch n dest =
         (if p.state ≠ .inStock then .noPiece else if p.claim ≠ 0 then .pieceBusy
          else if dest ≠ 255 then .badDest else if top.head? ≠ some n then .notOnTop
          else if p.hold ≠ 0 then .held else if p.maturity < (s.mix p.mix).dispatch then .notReady
          else if 8 ≤ y.claims.length then .claimsFull else .none) ∧
       (s.slot? dest = none ∨ dest = p.slot → s.claimVerdict .restack n dest =
         if p.state ≠ .inStock then .noPiece else if p.claim ≠ 0 then .pieceBusy else .badDest) ∧
       (∀ x planned, dest ≠ p.slot → s.slot? dest = some x → PlannedIs s x planned → s.claimVerdict .restack n dest =
         if p.state ≠ .inStock then .noPiece else if p.claim ≠ 0 then .pieceBusy
         else if top.head? ≠ some n then .notOnTop
         else placeChecks s p.length x planned (decide (8 ≤ y.claims.length ∨ 8 ≤ x.claims.length)))))

/-- MOVE_START (R156, R157): a QUEUED head move whose conditions hold reserves its targets, and travels with its GOTO
at once if its span is granted. MOVE_RESUME (R166): a SUSPENDED move of a crane that serves reserves with its resume
phase, and travels at once if its span is granted. When it is granted is R138's: the crane homed on the runway, every target
on it, and the run over its zone and the targets two zones from the other crane's extent, as that stands once the crane's
own span has shrunk (R140) and a request that waits for the other crane has been examined behind the shrink; else the
request waits. In both a DISPATCH without load whose piece has a hold ends ABORTED
with PIECE_HELD (R156). -/
def Obligations.StartedMoveReservesOrTravels : Prop :=
  (∀ (s : State) (c : Fin 2) (i : Fin 16), ActiveIs s c i → (s.move i).state = .queued → (s.move i).accepted = true →
     s.craneServes c = true → s.startCondition (s.move i).number = true →
     let m := s.move i
     let loaded := s.isLoaded m
     ((∀ p, s.piece? m.piece = some p → m.kind = .dispatch → loaded = false → p.hold = 0) →
       RequestsItsTargets s (otherCrane c) →
       ∃ u, exec (.moveStart c) s = .next (finish u) ∧ (u.move i).number = m.number ∧
         if grantedAtOnce s c (s.targetsOf m) = true then TravelsOnGrant u c i m loaded (homedAt s c) (s.targetsOf m)
         else (u.move i).state = .reserving ∧ (u.move i).waitTimer = some 0 ∧
           (u.mon c).request = some (s.targetsOf m)) ∧
     (∀ p, s.piece? m.piece = some p → m.kind = .dispatch → loaded = false → p.hold ≠ 0 →
       ∃ u, exec (.moveStart c) s = .next (finish u) ∧ EndedAborted s u i .pieceHeld)) ∧
  (∀ (s : State) (c : Fin 2) (i : Fin 16), ActiveIs s c i → (s.move i).state = .suspended → s.craneServes c = true →
     let m := s.move i
     let loaded := s.isLoaded m
     ((∀ p, s.piece? m.piece = some p → m.kind = .dispatch → loaded = false → p.hold = 0) →
       RequestsItsTargets s (otherCrane c) →
       ∃ u, exec (.moveResume c) s = .next (finish u) ∧
         if grantedAtOnce s c (s.targetsOf m) = true then TravelsOnGrant u c i m loaded (homedAt s c) (s.targetsOf m)
         else (u.move i).state = .reserving ∧ (u.mon c).request = some (s.targetsOf m) ∧
           (u.move i).resume = some (travelPhase m loaded) ∧ (u.move i).waitTimer = (if loaded then none else some 0)) ∧
     (∀ p, s.piece? m.piece = some p → m.kind = .dispatch → loaded = false → p.hold ≠ 0 →
       ∃ u, exec (.moveResume c) s = .next (finish u) ∧ EndedAborted s u i .pieceHeld))

/-- A report for the active move of a RUNNING crane with no report before it, and no valid block in progress. -/
abbrev ReportFor (s : State) (c : Fin 2) (i : Fin 16) (r : CabReport) : Prop :=
  ActiveIs s c i ∧ s.dir.lifecycle = .running ∧ (s.cab c).reports = [] ∧ reportOf (s.cab c).block = none ∧
  r.tag.toNat = (s.move i).number % 256

/-- WAIT_TIMER_EXPIRY, TRAVEL_TIMER_EXPIRY and LOST_TIMER_EXPIRY (R157, R159, R167, R170): a move without load ends
ABORTED with its reason; a loaded one that travels is suspended. CANNOT (R165): a move without load ends ABORTED with
CAB_REFUSED; a loaded one is suspended and the crane's SEQUENCE latch is set. The release behind an abort (R125): with every
list that it changes passing the claim test, it takes the move's claims out of the lists, releases no other move, and leaves
every other list as it stands, whether that list would pass or not. With a list that fails, the move of the named claim is
released too, its claims out of every list and its piece's claiming move absent, until every changed list passes; of several
failing lists the lowest slot is first (the model's choice, log entry 51). The moves so released end ABORTED with REPLANNED and
leave their queues (R125, R170). At most 16 moves hold claims (R119, R151). A CANNOT that is stale is stated with
ReportsMoveTheActiveMove, and the claim test (R120) with ScrapAndFreeFreeThePiece. -/
def Obligations.MoveWithoutLoadEndsAborted : Prop :=
  (∀ (s : State) (c : Fin 2) (i : Fin 16), ActiveIs s c i →
     ((s.move i).state = .reserving → (s.move i).waitTimer.isSome = true → (s.mon c).request.isSome = true →
       ∃ u, exec (.waitTimerExpiry c) s = .next (finish u) ∧ EndedAborted s u i .reserveTimeout) ∧
     ((s.move i).travelling = true → (s.move i).travelTimer.isSome = true → s.isLoaded (s.move i) = false →
       ∃ u, exec (.travelTimerExpiry c) s = .next (finish u) ∧ EndedAborted s u i .travelTimeout) ∧
     ((s.move i).travelling = true → (s.move i).travelTimer.isSome = true → s.isLoaded (s.move i) = true →
       ∃ u, exec (.travelTimerExpiry c) s = .next (finish u) ∧ (u.move i).state = .suspended ∧
         (u.move i).remembered = some (s.move i).state ∧ (u.move i).travelTimer = none) ∧
     ((s.move i).state = .suspended → s.isLoaded (s.move i) = false → s.dir.lifecycle = .running →
       (s.cab c).lostRuns = true →
       ∃ u, exec (.lostTimerExpiry c) s = .next (finish u) ∧ EndedAborted s u i .linkLost ∧ (u.cab c).lostRuns = false)) ∧
  (∀ (s : State) (c : Fin 2) (i : Fin 16) (r : CabReport), ReportFor s c i r →
     (s.move i).state ∉ [.queued, .reserving, .suspended] →
     (s.isLoaded (s.move i) = false →
       ∃ u, exec (.cannot c r) s = .next (finish u) ∧ EndedAborted s u i .cabRefused) ∧
     (s.isLoaded (s.move i) = true →
       ∃ u, exec (.cannot c r) s = .next (finish u) ∧ (u.move i).state = .suspended ∧ (u.cab c).sequence = true)) ∧
  (∀ (s : State) (move piece : Nat),
     let without (x : Slot) : Slot := { x with claims := x.claims.filter (fun c => decide (c.move ≠ move)) }
     (∀ x ∈ s.stock.slots, without x ≠ x → (s.testSlot (without x) x.stack).passed = true) →
     (releaseMove move piece s).2 = [] ∧ (releaseMove move piece s).1.stock.slots = s.stock.slots.map without) ∧
  (∀ (s : State) (move piece : Nat) (holders : List Nat), holders.length ≤ 16 →
     (∀ x ∈ s.stock.slots, ∀ c ∈ x.claims, c.move ∈ holders) →
     let t := (releaseMove move piece s).1
     let released := (releaseMove move piece s).2
     let without (gone : List Nat) (x : Slot) : Slot := { x with claims := x.claims.filter (fun c => decide (c.move ∉ gone)) }
     let left (x : Slot) : Slot := without (move :: released) x
     let passes (y x : Slot) : Prop := (s.testSlot y x.stack).passed = true
     t.stock.slots = s.stock.slots.map left ∧ (∀ x ∈ s.stock.slots, left x ≠ x → passes (left x) x) ∧
     (∀ p, s.piece? piece = some p → p.claim = move → t.piece? piece = some { p with claim := 0 }) ∧
     (∀ n x c, s.slot? n = some x → without [move] x ≠ x → s.testSlot (without [move] x) x.stack = .fails c →
       (∀ k y, k < n → s.slot? k = some y → without [move] y ≠ y → passes (without [move] y) y) →
       released.head? = some c.move ∧
       ∀ p, s.piece? c.piece = some p → p.claim = c.move → t.piece? c.piece = some { p with claim := 0 }))

/-- CAB_BLOCK and STATUS (R158, R159, R161): the receiver takes the line up to the gap that ends a block, and goes on
behind it; a block that is no valid report changes no more than the receiver; a STATUS makes the link UP, restarts the
quiet timer, stops the lost timer and moves no move. QUIET_TIMER_EXPIRY (R159): the link is LOST with its condition,
the lost timer starts from 0, and a move beyond QUEUED is suspended; the condition is raised where the alarm blocks exist
(R174, R181). CAB_READY and SHIFTER_FREE (R160): an instruction that waits moves into an empty shifter while the cab is
ready, and the shifter sends its eight characters (R191). -/
def Obligations.CabLinkFollowsItsBlocks : Prop :=
  (∀ (s : State) (c : Fin 2),
     (∀ samples : List Bool,
       let h := cabForm.listen (s.cab c).rx (s.cab c).block samples
       let heard (block : List RxChar) : State := s.setCrane c { s.crane c with cab := { s.cab c with rx := h.rx, block := block } }
       (h.ended = false → exec (.cabBlock c samples) s = .next (finish (heard h.chars))) ∧
       (h.ended = true → reportOf h.chars = none → exec (.cabBlock c samples) s = exec (.cabBlock c h.rest) (heard [])) ∧
       (∀ x, h.ended = true → reportOf h.chars = some x → x.kind = .status → (s.cab c).reports = [] →
         ∃ v, exec (.cabBlock c samples) s = exec (.cabBlock c h.rest) v ∧ (v.cab c).link = .up ∧ (v.cab c).quietTimer = 0 ∧
           (v.cab c).lostRuns = false ∧ (v.cab c).reports = [] ∧ (v.cab c).rx = h.rx ∧ (v.cab c).block = [] ∧
           v.moves = s.moves)) ∧
     (∀ r : CabReport, (s.cab c).reports = [] → reportOf (s.cab c).block = none →
       ∃ u, exec (.status c r) s = .next (finish u) ∧ (u.cab c).link = .up ∧ (u.cab c).quietTimer = 0 ∧
         (u.cab c).lostRuns = false ∧ (u.cab c).reports = [] ∧ u.moves = s.moves)) ∧
  (∀ (s : State) (c : Fin 2), (s.cab c).link ≠ .lost →
     ∃ u, exec (.quietTimerExpiry c) s = .next (finish u) ∧ (u.cab c).link = .lost ∧ (u.cab c).lostTimer = 0 ∧
       (u.cab c).lostRuns = true ∧
       (s.notices.alarmsBuilt = true → (u.crane c).alarm.conditions.getLsbD 6 = true) ∧
       ∀ i, ActiveIs s c i → (s.move i).state ∉ [.queued, .suspended] →
         (u.move i).state = .suspended ∧ (u.move i).remembered = some (s.move i).state) ∧
  (∀ (s : State) (c : Fin 2),
     (∀ active, ∃ u, exec (.cabReady c active) s = .next (finish u) ∧ (u.cab c).cabReady = active ∧
       (∀ ins, active = true → (s.cab c).shifter = none → (s.cab c).slot = some ins →
         (u.cab c).shifter = some ⟨ins, ins.block⟩ ∧ (u.cab c).slot = none) ∧
       (active = false ∨ (s.cab c).shifter.isSome = true → (u.cab c).shifter = (s.cab c).shifter ∧
         (u.cab c).slot = (s.cab c).slot)) ∧
     (∃ u, exec (.shifterFree c) s = .next (finish u) ∧
       (∀ ins, (s.cab c).cabReady = true → (s.cab c).slot = some ins →
         (u.cab c).shifter = some ⟨ins, ins.block⟩ ∧ (u.cab c).slot = none) ∧
       ((s.cab c).cabReady = false ∨ (s.cab c).slot = none → (u.cab c).shifter = none ∧ (u.cab c).slot = (s.cab c).slot))) ∧
  (∀ x : Instruction,
     let char (n : Nat) : BitVec 8 := .ofNat 8 n
     x.block = [char x.kind.toNat, char x.tag, char x.zone, char (x.piece / 256), char x.piece, char x.purpose.toNat, 0,
       char (x.kind.toNat + x.tag + x.zone + x.piece / 256 + x.piece + x.purpose.toNat)])

/-- A crane of a RUNNING part with no report in its list and no valid block in progress. -/
abbrev HearsTheNext (s : State) (c : Fin 2) : Prop :=
  s.dir.lifecycle = .running ∧ (s.cab c).reports = [] ∧ reportOf (s.cab c).block = none

/-- A report of a kind with a tag is stale for crane `c` (R161): there is no active move, or its tag is another's, or the
move is SUSPENDED, or the report is a CANNOT before the move has an instruction in force. -/
abbrev StaleFor (s : State) (c : Fin 2) (kind : ReportKind) (tag : Nat) : Prop :=
  ∀ i, s.activeMove c = some i → tag ≠ (s.move i).number % 256 ∨ (s.move i).state = .suspended ∨
    kind = .cannot ∧ (s.move i).state ∈ [.queued, .reserving]

/-- A notice of this kind, source and detail waits for the ring or in the pending set (R175). -/
abbrev NoticeStands (u : State) (kind : NoticeKind) (cls : SourceClass) (index detail : Nat) : Prop :=
  ∃ n ∈ u.notices.writeList ++ u.notices.waiting, n.kind = kind ∧ n.cls = cls ∧ n.index = index ∧ n.detail = .ofCount detail

/-- A report has been dropped with STALE_REPORT (R161): no move, claim, bed, span or latch has changed. -/
abbrev DroppedAsStale (s u : State) (c : Fin 2) (kind : ReportKind) (tag : Nat) : Prop :=
  u.moves = s.moves ∧ u.stock = s.stock ∧ u.beds = s.beds ∧
  (∀ d, u.mon d = s.mon d ∧ (u.cab d).queue = (s.cab d).queue ∧ (u.cab d).sequence = (s.cab d).sequence) ∧
  NoticeStands u .staleReport .crane c.val (kind.toNat % 65536 + 65536 * (tag % 65536))

/-- A report of the active move `i` was out of phase (R161, R166): the crane's SEQUENCE latch is set, with its condition
where the alarm blocks exist, and the move is SUSPENDED with OUT_OF_PHASE, unless it is QUEUED. -/
abbrev TakenOutOfPhase (s u : State) (c : Fin 2) (i : Fin 16) : Prop :=
  (u.cab c).sequence = true ∧
  ((s.cab c).sequence = false → s.notices.alarmsBuilt = true → (u.crane c).alarm.conditions.getLsbD 5 = true) ∧
  ((s.move i).state = .queued → u.move i = s.move i) ∧
  ((s.move i).state ≠ .queued → (u.move i).state = .suspended ∧ (u.move i).remembered = some (s.move i).state ∧
    (u.move i).waitTimer = none ∧ (u.move i).travelTimer = none ∧ NoticeStands u .moveSuspended .move i.val 57)

/-- ARRIVED (R162): at its target zone a move in TO_PICK is AT_PICK, one in TO_PARK is DONE, and one in TO_PLACE is
marked arrived with its travel timer stopped. LIFTED and LANDED (R164, R157): from HOOKED the move with its load goes to
TO_PLACE with its GOTO if its place zone lies in its span, and else reserves it, travels at once if R138 grants it, and
waits for it otherwise; from AT_PLACE it is LANDED. A report that is stale is dropped with STALE_REPORT, and one that does
not fit the move's state, or an ARRIVED that fails a zone comparison, sets the SEQUENCE latch and suspends the move (R161,
R162, R165, R166). A HOOKED and an UNHOOKED are judged when their event is tried, with or without a group (R163, R164): the
event stands in the outbox until the command's end (log entry 3). That an ARRIVED with its mark set fails too at another
zone is the model's choice (log entry 55). -/
def Obligations.ReportsMoveTheActiveMove : Prop :=
  (∀ (s : State) (c : Fin 2) (r : CabReport) (kind : ReportKind) (cmd : Instr),
     (cmd, kind) ∈ [(.arrived c r, .arrived), (.lifted c r, .lifted), (.landed c r, .landed), (.cannot c r, .cannot)] →
     HearsTheNext s c → StaleFor s c kind r.tag.toNat →
     ∃ u, exec cmd s = .next (finish u) ∧ DroppedAsStale s u c kind r.tag.toNat ∧ (u.cab c).reports = []) ∧
  (∀ (s : State) (c : Fin 2) (r : CabReport) (kind : ReportKind) (cmd : Instr),
     (cmd, kind) ∈ [(.hooked c r, .hooked), (.unhooked c r, .unhooked)] → HearsTheNext s c →
     .report c ∉ s.path.kept → .report c ∉ s.path.outbox →
     ∃ u, exec cmd s = .next (finish u) ∧ u.moves = s.moves ∧ u.stock = s.stock ∧ u.beds = s.beds ∧
       (u.cab c).reports = [⟨kind, r.tag.toNat, r.zone.toNat, r.piece.toNat, r.load.toNat⟩] ∧
       u.path.outbox = s.path.outbox ++ [.report c]) ∧
  (∀ (s : State) (c : Fin 2) (x : Report) (rest : List Report), (s.cab c).reports = x :: rest → x.kind ≠ .status →
     (StaleFor s c x.kind x.tag → ∃ u, form (.report c) s = (u, none) ∧ DroppedAsStale s u c x.kind x.tag ∧
       (u.cab c).reports = rest) ∧
     (∀ i, ActiveIs s c i → x.tag = (s.move i).number % 256 → (s.move i).state ≠ .suspended →
       (x.kind = .hooked ∧ ((s.move i).state ≠ .atPick ∨ x.load = 0 ∨ x.piece ≠ (s.move i).piece ∨
           (s.move i).kind = .lift ∧ s.liftGate (s.move i).piece = false) ∨
         x.kind = .unhooked ∧ (s.move i).state ≠ .landed) →
       ∃ u, form (.report c) s = (u, none) ∧ TakenOutOfPhase s u c i ∧ (u.cab c).reports = rest)) ∧
  (∀ (s : State) (c : Fin 2) (i : Fin 16) (r : CabReport) (cmd : Instr), ReportFor s c i r → (s.move i).state ≠ .suspended →
     (cmd = .arrived c r ∧ ((s.move i).state ∉ [.toPick, .toPlace, .toPark] ∨ r.zone.toNat ≠ (s.move i).target ∨
         (s.cab c).posZone ≠ some ((s.move i).target : Int)) ∨
       cmd = .lifted c r ∧ (s.move i).state ≠ .hooked ∨ cmd = .landed c r ∧ (s.move i).state ≠ .atPlace) →
     ∃ u, exec cmd s = .next (finish u) ∧ TakenOutOfPhase s u c i) ∧
  (∀ (s : State) (c : Fin 2) (i : Fin 16) (r : CabReport), ReportFor s c i r →
     r.zone.toNat = (s.move i).target → (s.cab c).posZone = some ((s.move i).target : Int) →
     ((s.move i).state = .toPick → ∃ u, exec (.arrived c r) s = .next (finish u) ∧ (u.move i).state = .atPick ∧
       (u.move i).travelTimer = none) ∧
     ((s.move i).state = .toPark → ∃ u, exec (.arrived c r) s = .next (finish u) ∧ (u.move i).state = .done ∧
       (s.move i).number ∉ (u.cab c).queue) ∧
     ((s.move i).state = .toPlace → (s.move i).arrived = false → ∃ u, exec (.arrived c r) s = .next (finish u) ∧
       (u.move i).state = (if s.loweringCondition (s.move i) then .atPlace else .toPlace) ∧
       (u.move i).travelTimer = none ∧ (u.move i).arrived = true)) ∧
  (∀ (s : State) (c : Fin 2) (i : Fin 16) (r : CabReport), ReportFor s c i r →
     ((s.move i).state = .hooked → s.inSpan c ((s.move i).placeZone : Int) = true →
       ∃ u, exec (.lifted c r) s = .next (finish u) ∧ (u.move i).state = .toPlace ∧ (u.move i).travelTimer = some 0 ∧
         (u.move i).arrived = false ∧ (s.isLoaded (s.move i) = true → Travels u c i (s.move i) true)) ∧
     ((s.move i).state = .hooked → s.isLoaded (s.move i) = true → s.inSpan c ((s.move i).placeZone : Int) = false →
       RequestsItsTargets s (otherCrane c) →
       ∃ u, exec (.lifted c r) s = .next (finish u) ∧
         if grantedAtOnce s c [(s.move i).placeZone] = true then
           TravelsOnGrant u c i (s.move i) true (homedAt s c) [(s.move i).placeZone]
         else (u.move i).state = .reserving ∧ (u.move i).resume = some .toPlace ∧ (u.move i).waitTimer = none ∧
           (u.mon c).request = some [(s.move i).placeZone]) ∧
     ((s.move i).state = .atPlace → ∃ u, exec (.landed c r) s = .next (finish u) ∧ (u.move i).state = .landed))

/-- HOOKED in a calm part (R163, R123): the piece is ON_HOOK and the move HOOKED, when the piece is the right one with
a load on the hook and, for a LIFT, the lift gate open. A piece IN_BED leaves its bed's list with the bed's maturity, and
a DETENSIONED bed that it empties becomes EMPTY (R18, R90); a piece IN_STOCK leaves the top of its slot's stack, and the
claim that picked it leaves the head of the list. UNHOOKED in a calm part (R164, R124): the move is DONE, and its piece
is DISPATCHED in the bay's zone, or lies on top of its destination slot's stack, with the head claim gone. -/
def Obligations.HookedAndUnhookedMoveThePiece : Prop :=
  (∀ (s : State) (c : Fin 2) (i : Fin 16) (r : CabReport) (p : Piece), s.Calm → ReportFor s c i r →
     (s.move i).state = .atPick → 0 < r.load.toNat → r.piece.toNat = (s.move i).piece → (s.move i).kind ≠ .park →
     s.piece? (s.move i).piece = some p → p.claim = (s.move i).number →
     ((s.move i).kind = .lift → s.liftGate (s.move i).piece = true) →
     let n := (s.move i).piece
     let hooked (t : State) : Prop := exec (.hooked c r) s = .next t ∧ (t.move i).state = .hooked ∧
       t.isLoaded (t.move i) = true ∧ ∃ q, t.piece? n = some q ∧ q.state = .onHook ∧ q.claim = (s.move i).number ∧
         (p.state = .inBed → ∀ b : Fin 24, p.bed = b.val + 1 → q.maturity = (s.cureUnit b).maturity) ∧
         (p.state = .inStock → q.slot = 0)
     (∀ b : Fin 24, p.state = .inBed → p.bed = b.val + 1 → n ∈ (s.bedUnit b).inBed →
       ∃ t, hooked t ∧ (t.bedUnit b).inBed = (s.bedUnit b).inBed.filter (fun k => decide (k ≠ n)) ∧
         (t.bedUnit b).state = (if (s.bedUnit b).state = .detensioned ∧ (t.bedUnit b).inBed = [] then .empty
           else (s.bedUnit b).state)) ∧
     (∀ x claims, p.state = .inStock → s.slot? p.slot = some x → x.claims = ⟨(s.move i).number, .pick, n⟩ :: claims →
       x.stack.getLast? = some n →
       ∃ t, hooked t ∧ t.slot? p.slot = some { x with stack := x.stack.dropLast, claims := claims })) ∧
  (∀ (s : State) (c : Fin 2) (i : Fin 16) (r : CabReport) (p : Piece), s.Calm → ReportFor s c i r →
     (s.move i).state = .landed → s.piece? (s.move i).piece = some p → p.state = .onHook → p.claim = (s.move i).number →
     let n := (s.move i).piece
     let dest := (s.move i).dest
     let ended (t : State) : Prop := exec (.unhooked c r) s = .next t ∧ (t.move i).state = .done ∧
       (s.move i).number ∉ (t.cab c).queue
     (dest = 255 → ∃ t, ended t ∧ t.piece? n = some { p with state := .dispatched, claim := 0, zone := s.dir.bayZone } ∧
       n ∈ t.stock.dispatched) ∧
     (∀ x claims piece, dest ≠ 255 → s.slot? dest = some x → x.claims = ⟨(s.move i).number, .place, piece⟩ :: claims →
       ∃ t, ended t ∧ t.piece? n = some { p with state := .inStock, claim := 0, slot := dest, zone := x.zone } ∧
         t.slot? dest = some { x with stack := x.stack ++ [n], claims := claims }))

/-- How a claim list parts at the insertion point of a redirect (R126): directly after the last loaded claim. -/
abbrev PartsAtLoaded (s : State) (claims ahead behind : List Claim) : Prop :=
  claims = ahead ++ behind ∧ (∀ c, ahead.getLast? = some c → s.claimLoaded c = true) ∧
  ∀ c ∈ behind, s.claimLoaded c = false

/-- ABORT in a calm part (R169, R170): a live accepted move without load ends ABORTED with HOST; one with load is
refused. REDIRECT in a calm part (R169, R171): a move whose state allows it has its entry read, with the new destination
in memory; any other is refused with STATE. The read that returns hands the redirect with its new destination, or MEMORY
(R171). The redirect is judged by R126, and its group carries the result: an accepted one takes its new destination, its
PLACE claim is inserted after the loaded claims of the new slot and gone from the old one, and the move stays HOOKED or
SUSPENDED, or goes on to its new place, travelling if that lies in the span or is granted and waiting for it otherwise;
a refused one changes no slot. That the redirect is judged again when its group is formed, and not when its data returns
(R171), is the model's reading (log entries 28 and 3); that the group of an accepted one writes the control word NONE
(log entry 75), and that a move which travels at once has no request left (log entry 73), are its choices. -/
def Obligations.AbortAndRedirectAreJudged : Prop :=
  (∀ (s : State) (i : Fin 16) (addr : Nat), s.Calm → s.WordLies .moveTable i.val 13 addr → (s.move i).ctrl = none →
     (s.move i).state ∉ [.empty, .done, .aborted] → (s.move i).accepted = true →
     (s.isLoaded (s.move i) = false → ∃ u, exec (.abort i) s = .next (finish u) ∧ EndedAborted s u i .host ∧
       (u.move i).ctrlResult = resultWord 1 .accepted ∧ u.mem = setWord s.mem addr 1) ∧
     (s.isLoaded (s.move i) = true → ∃ u, exec (.abort i) s = .next (finish u) ∧ u.mem = s.mem ∧ u.moves = s.moves ∧
       u.path.refusal = ⟨addr, .loadOnHook, s.dir.worksTime⟩)) ∧
  (∀ (s : State) (i : Fin 16) (addr : Nat) (dest : Word), s.Calm → s.WordLies .moveTable i.val 13 addr →
     locate s.path.windows (addr + 1) = some ⟨.moveTable, i.val, 14⟩ → addr + 1 < 4194304 → (s.move i).ctrl = none →
     (s.redirectable (s.move i) = true → ∃ t, exec (.redirect i dest) s = .next t ∧
       t.mem = setWord (setWord s.mem addr 2) (addr + 1) dest ∧
       (t.move i).ctrl = some ⟨.redirect, .readInFlight, .none, 0⟩ ∧ t.held ⟨.moveTable, i.val⟩ = true) ∧
     (s.redirectable (s.move i) = false → ∃ u, exec (.redirect i dest) s = .next (finish u) ∧ u.mem = s.mem ∧
       u.moves = s.moves ∧ u.path.refusal = ⟨addr, .state, s.dir.worksTime⟩)) ∧
  (∀ (s : State) (rd : OwnRead) (data : Option (List Word)) (k : Nat) (rest : List ReturnedRead) (i : Fin 16) (r : CtrlRequest),
     s.path.returned = ⟨rd, data, k⟩ :: rest → rd.purpose = .redirect i → (s.move i).ctrl = some r → r.stage = .readInFlight →
     ∃ u, exec .ownReadDone s = .next (finish u) ∧ u.path.returned = rest ∧ u.mem = s.mem ∧
       match data with
       | some d => u.path.outbox = s.path.outbox ++ [.redirect i] ∧
           (u.move i).ctrl = some { r with stage := .waitingSlot, dest := (d.getD 14 0).toNat }
       | none => u.path.outbox = s.path.outbox ++ [.ctrlResult i] ∧
           (u.move i).ctrl = some ⟨.redirect, .waitingSlot, .memory, 0⟩) ∧
  (∀ (s : State) (m : Move) (p : Piece), s.piece? m.piece = some p →
     let removed : Code := if s.removalPasses m.number m.dest = true then .none else .replanConflict
     (s.redirectVerdict m 255 =
       if m.dest = 255 then .badDest else if p.hold ≠ 0 then .held
       else if p.maturity < (s.mix p.mix).dispatch then .notReady else removed) ∧
     (∀ dest, dest ≠ 255 → s.slot? dest = none → s.redirectVerdict m dest = .badDest) ∧
     (∀ dest x ahead behind t, dest ≠ 255 → s.slot? dest = some x → PartsAtLoaded s x.claims ahead behind →
       claimTest s.lengthOf x.maxHeight (startTest x.stack) ahead = .passes t → t.stack.length ≤ x.maxHeight →
       s.redirectVerdict m dest =
         if dest = m.dest then .badDest else if x.isOpen = false then .slotClosed
         else if 8 ≤ x.claims.length then .claimsFull
         else if t.stack.length = x.maxHeight then .noRoom
         else if t.stack.head?.any (fun top => decide (s.lengthOf top < p.length)) = true then .length
         else if (claimTest s.lengthOf x.maxHeight ⟨m.piece :: t.stack, max t.peak (t.stack.length + 1)⟩ behind).passed = true
           then removed else .replanConflict)) ∧
  (∀ (s : State) (i : Fin 16) (r : CtrlRequest), (s.move i).ctrl = some r → r.code = .redirect →
     let m := s.move i
     let verdict : Code := if s.redirectable m = true then s.redirectVerdict m r.dest else .state
     (verdict = .none → ∃ u spans, form (.redirect i) s = (u, some (spans, .control i)) ∧
       recordSpan .moveTable i.val (moveWords (u.move i) ++ [(13, 0)]) ∈ spans ∧ (∀ sp ∈ u.pieceSpan m.piece, sp ∈ spans) ∧
       (u.move i).dest = r.dest ∧ (u.move i).placeZone = s.destZone r.dest ∧
       (u.move i).ctrlResult = resultWord 2 .accepted ∧
       (u.move i).ctrl = some { r with stage := .resultInFlight, result := .accepted } ∧
       (∀ x, m.dest ≠ 255 → s.slot? m.dest = some x → (∀ sp ∈ u.slotSpan m.dest, sp ∈ spans) ∧
         u.slot? m.dest = some { x with claims := x.claims.filter (fun k => decide (k.move ≠ m.number)) }) ∧
       (∀ x ahead behind, r.dest ≠ 255 → s.slot? r.dest = some x → PartsAtLoaded s x.claims ahead behind →
         (∀ sp ∈ u.slotSpan r.dest, sp ∈ spans) ∧
         u.slot? r.dest = some { x with claims := ahead ++ ⟨m.number, .place, m.piece⟩ :: behind }) ∧
       (m.state ∈ [.hooked, .suspended] → (u.move i).state = m.state) ∧
       (ActiveIs s m.crane i → s.isLoaded m = true → m.state ∈ [.toPlace, .atPlace, .reserving] →
         RequestsItsTargets s (otherCrane m.crane) →
         let zone := s.destZone r.dest
         if s.inSpan m.crane (zone : Int) = true then
           Travels u m.crane i { m with placeZone := zone } true ∧ (u.mon m.crane).request = none
         else if grantedAtOnce s m.crane [zone] = true then
           TravelsOnGrant u m.crane i { m with placeZone := zone } true (homedAt s m.crane) [zone]
         else (u.move i).state = .reserving ∧ (u.move i).resume = some .toPlace ∧
           (u.mon m.crane).request = some [zone])) ∧
     (verdict ≠ .none → ∃ u, form (.redirect i) s =
         (u, some ([recordSpan .moveTable i.val [(13, 0), (15, resultWord 2 verdict)]], .control i)) ∧
       u.stock = s.stock ∧ u.cranes = s.cranes ∧ (u.move i).dest = m.dest ∧ (u.move i).state = m.state ∧
       (u.move i).ctrlResult = resultWord 2 verdict))

/-! ### Notices and alarms (chapter 9) -/

/-- NOTICE_TAIL in a calm part (R177, R175): a tail within what has been written is taken, and the pending set is released
in order, as many of its notices as the ring has free entries; the tail as it stands passes without effect; one past
what has been written, or past the ring, is refused with TAIL. -/
def Obligations.NoticeTailReleasesThePendingSet : Prop :=
  ∀ (s : State) (tail : Word) (addr : Nat), s.Calm → s.WordLies .directory 0 25 addr → 0 < s.notices.size →
    let n := s.notices.size
    let distance := (tail.toNat + n - s.notices.tail) % n
    let written := (s.notices.writtenHead + n - s.notices.tail) % n
    let free := (tail.toNat + n - 1 - s.notices.assignedHead) % n
    let k := min s.notices.waiting.length free
    (tail.toNat < n → 0 < distance → distance ≤ written → s.notices.tail < n → s.notices.assignedHead < n →
      ∃ u, exec (.noticeTail tail) s = .next (finish u) ∧ u.mem = setWord s.mem addr tail ∧ u.host.replies = [⟨.done, []⟩] ∧
        u.notices = { s.notices with tail := tail.toNat, waiting := s.notices.waiting.drop k,
                                     writeList := s.notices.waiting.take k, assignedHead := (s.notices.assignedHead + k) % n }) ∧
    (tail.toNat < n → tail.toNat = s.notices.tail →
      ∃ u, exec (.noticeTail tail) s = .next (finish u) ∧ u.mem = setWord s.mem addr tail ∧ u.host.replies = [⟨.done, []⟩] ∧
        u.notices = s.notices) ∧
    (n ≤ tail.toNat ∨ written < distance → ∃ u, exec (.noticeTail tail) s = .next (finish u) ∧ u.mem = s.mem ∧
      u.notices = s.notices ∧ u.path.refusal = ⟨addr, .tail, s.dir.worksTime⟩ ∧ u.host.replies = [⟨.refused, []⟩])

/-- ACK in a calm part (R180): a SEEN alarm becomes ACKED while a condition is present, and CLEAR with none; a RAISED
one is refused with NOT_SEEN, a CLEAR or ACKED one with STATE. A bed's and a loop's alarm has no release. The release of
a BARRED probe takes away its FRAMING condition (R58), and that of a crane its latched faults and SEQUENCE (R146, R161),
but a CONFLICT, a DISOBEY or an OVERRUN that stands as a level latches again and raises the alarm afresh. A bed's, a probe's,
a crane's and a loop's alarm is raised by a new condition in every state but RAISED, with ALARM_RAISED posted from its source
(R179), where alarm blocks exist (R174); with its last condition gone an ACKED one becomes CLEAR, with ALARM_CLEARED posted
(R179), whose detail 0 is the model's choice (log entry 66), and in every other state it stays. No step makes an alarm SEEN but the answer to a host READ that covers its state
word while it is RAISED, and that gives the host RAISED (R180); a READ taken during LOADING hands no read event (R36; that
the moment of its taking counts is the model's reading, log entry 57); loading builds the states that were stored (R181). -/
def Obligations.AlarmNeedsAReadBeforeItsAck : Prop :=
  (∀ (s : State) (r : AlarmRef) (addr : Nat), s.Calm →
     s.WordLies (alarmPlace r).region (alarmPlace r).index ((alarmPlace r).offset + 3) addr →
     ((s.alarm r).state = .seen →
       ∃ u, exec (.ack r) s = .next (finish u) ∧ u.mem = setWord s.mem addr 1 ∧ u.host.replies = [⟨.done, []⟩] ∧
         (∀ b, r = .bed b → if (s.alarm r).conditions = 0
           then (u.alarm r).state = .clear ∧
             u.notices = s.notices.place true ⟨.alarmCleared, .bed, b.val + 1, 0, s.dir.worksTime⟩
           else (u.alarm r).state = .acked ∧ u.notices = s.notices) ∧
         (∀ l, r = .loop l → if (s.alarm r).conditions = 0
           then (u.alarm r).state = .clear ∧ u.notices = s.notices.place true ⟨.alarmCleared, .loop, l.val, 0, s.dir.worksTime⟩
           else (u.alarm r).state = .acked ∧ u.notices = s.notices) ∧
         (∀ n e, r = .probe n → s.roster[n]? = some e →
           let left := if e.state = .barred then clearBit e.alarm.conditions 1 else e.alarm.conditions
           ∃ e', u.roster[n]? = some e' ∧ e'.alarm.conditions = left ∧ e'.alarm.state = (if left = 0 then .clear else .acked) ∧
             (e.state ≠ .barred → e'.state = e.state) ∧ (e.state = .barred → e'.state = .suspect ∧ e'.miss = 0 ∧ e'.good = 0)) ∧
         (∀ c, r = .crane c → (u.cab c).sequence = false ∧ ((s.mon c).armed = false → (u.mon c).armed = false) ∧
           let m := s.mon c
           let latchedGone := m.latched.foldl (fun x k => clearBit x k.bit) (s.alarm r).conditions
           let left := if (s.cab c).sequence then clearBit latchedGone 5 else latchedGone
           (m.detecting = false ∨ m.conflict = false ∧ m.disobeys = false ∧
               (∀ z, m.posZone = some z → m.homed = true → s.onRunway z = true) →
             (u.mon c).latched = [] ∧ (u.alarm r).conditions = left ∧
             (u.alarm r).state = (if left = 0 then .clear else .acked)) ∧
           ∀ kind, (kind = .conflict ∧ m.conflict = true ∨ kind = .disobey ∧ m.disobeys = true ∨
               kind = .overrun ∧ m.homed = true ∧ ∃ z, m.posZone = some z ∧ s.onRunway z = false) →
             m.detecting = true → kind ∈ m.latched → s.notices.alarmsBuilt = true →
             kind ∈ (u.mon c).latched ∧ (u.alarm r).state = .raised ∧ (u.alarm r).conditions.getLsbD kind.bit = true ∧
             (u.mon c).armed = false)) ∧
     ((s.alarm r).state ≠ .seen → ∃ u, exec (.ack r) s = .next (finish u) ∧ u.mem = s.mem ∧
       u.host.replies = [⟨.refused, []⟩] ∧
       u.path.refusal = ⟨addr, if (s.alarm r).state = .raised then .notSeen else .state, s.dir.worksTime⟩)) ∧
  (∀ (s : State) (r : AlarmRef) (bit : Nat), bit < 32 → s.notices.alarmsBuilt = true →
     (∀ n, r = .probe n → (s.roster[n]?).isSome = true) →
     let a := s.alarm r
     let u := conditionArises r bit s
     let source : SourceClass × Nat := match r with
       | .bed b => (.bed, b.val + 1)
       | .probe n => (.probe, n)
       | .crane c => (.crane, c.val)
       | .loop l => (.loop, l.val)
     (a.conditions.getLsbD bit = false → a.state ≠ .raised →
       u.alarm r = ⟨.raised, a.conditions ||| (1#32 <<< bit), s.dir.worksTime⟩ ∧
       u.notices = s.notices.place s.running ⟨.alarmRaised, source.1, source.2, .ofCount bit, s.dir.worksTime⟩) ∧
     (a.conditions.getLsbD bit = false → a.state = .raised →
       u.alarm r = { a with conditions := a.conditions ||| (1#32 <<< bit) } ∧ u.notices = s.notices) ∧
     (a.conditions.getLsbD bit = true → u = s) ∧
     (∀ r', r' ≠ r → u.alarm r' = s.alarm r') ∧
     (let v := conditionGone r bit s
      let left := a.conditions &&& ~~~(1#32 <<< bit)
      (a.conditions.getLsbD bit = true → left = 0 → a.state = .acked →
        v.alarm r = { a with state := .clear, conditions := 0 } ∧
        v.notices = s.notices.place s.running ⟨.alarmCleared, source.1, source.2, 0, s.dir.worksTime⟩) ∧
      (a.conditions.getLsbD bit = true → (left ≠ 0 ∨ a.state ≠ .acked) →
        v.alarm r = { a with conditions := left } ∧ v.notices = s.notices) ∧
      (a.conditions.getLsbD bit = false → v = s) ∧ (∀ r', r' ≠ r → v.alarm r' = s.alarm r')) ∧
     (∀ given, ((readEvent r given s).alarm r).state = if a.state = .raised ∧ given = 1 then .seen else a.state)) ∧
  (∀ (s t : State) (r : AlarmRef), (s.host.up = none → s.host.backlog = []) →
     (∀ rest, s.pending ≠ .loadReadsDone :: rest) → step s = .next t → (s.alarm r).state ≠ .seen → (t.alarm r).state = .seen →
     (s.alarm r).state = .raised ∧ ∃ rest u n k w, s.pending = .memoryResponse .done :: rest ∧ s.path.port = .host ∧
       s.host.up = some u ∧ u.xfer.op = .read n ∧ u.takenLoading = false ∧ k < n ∧ locate s.path.windows (u.xfer.addr + k) = some w ∧
       alarmAt w = some (r, 0) ∧ wordAt s.mem (u.xfer.addr + k) = 1)
end

