-- ==== Sys2Proof/Laws/State.lean ====
section
/-! SUPPORT. What each update of State leaves as it was, field by field, and what it sets. A record
update that a definition writes out itself needs no lemma: its projections compute. -/

namespace Sys2Proof.Machine

/-! ### What an update leaves -/

@[simp] theorem setBed_keeps (s : State) (b : Fin 24) (x : Bed) :
    (State.setBed s b x).pending = s.pending ∧ (State.setBed s b x).mem = s.mem ∧
    (State.setBed s b x).host = s.host ∧ (State.setBed s b x).path = s.path ∧ (State.setBed s b x).dir = s.dir ∧
    (State.setBed s b x).load = s.load ∧ (State.setBed s b x).notices = s.notices ∧
    (State.setBed s b x).mixes = s.mixes ∧ (State.setBed s b x).freeCount = s.freeCount ∧
    (State.setBed s b x).steam = s.steam ∧ (State.setBed s b x).roster = s.roster ∧
    (State.setBed s b x).loops = s.loops ∧ (State.setBed s b x).rosterLoaded = s.rosterLoaded ∧
    (State.setBed s b x).stock = s.stock ∧ (State.setBed s b x).cranes = s.cranes ∧
    (State.setBed s b x).yardStop = s.yardStop ∧ (State.setBed s b x).cranesLoaded = s.cranesLoaded ∧
    (State.setBed s b x).moves = s.moves ∧ (State.setBed s b x).clockMs = s.clockMs :=
  ⟨rfl, rfl, rfl, rfl, rfl, rfl, rfl, rfl, rfl, rfl, rfl, rfl, rfl, rfl, rfl, rfl, rfl, rfl, rfl⟩

@[simp] theorem setLoop_keeps (s : State) (l : Fin 4) (x : Loop) :
    (State.setLoop s l x).pending = s.pending ∧ (State.setLoop s l x).mem = s.mem ∧
    (State.setLoop s l x).host = s.host ∧ (State.setLoop s l x).path = s.path ∧ (State.setLoop s l x).dir = s.dir ∧
    (State.setLoop s l x).load = s.load ∧ (State.setLoop s l x).notices = s.notices ∧
    (State.setLoop s l x).beds = s.beds ∧ (State.setLoop s l x).mixes = s.mixes ∧
    (State.setLoop s l x).freeCount = s.freeCount ∧ (State.setLoop s l x).steam = s.steam ∧
    (State.setLoop s l x).roster = s.roster ∧ (State.setLoop s l x).rosterLoaded = s.rosterLoaded ∧
    (State.setLoop s l x).stock = s.stock ∧ (State.setLoop s l x).cranes = s.cranes ∧
    (State.setLoop s l x).yardStop = s.yardStop ∧ (State.setLoop s l x).cranesLoaded = s.cranesLoaded ∧
    (State.setLoop s l x).moves = s.moves ∧ (State.setLoop s l x).clockMs = s.clockMs :=
  ⟨rfl, rfl, rfl, rfl, rfl, rfl, rfl, rfl, rfl, rfl, rfl, rfl, rfl, rfl, rfl, rfl, rfl, rfl, rfl⟩

@[simp] theorem setCrane_keeps (s : State) (c : Fin 2) (x : Crane) :
    (State.setCrane s c x).pending = s.pending ∧ (State.setCrane s c x).mem = s.mem ∧
    (State.setCrane s c x).host = s.host ∧ (State.setCrane s c x).path = s.path ∧
    (State.setCrane s c x).dir = s.dir ∧ (State.setCrane s c x).load = s.load ∧
    (State.setCrane s c x).notices = s.notices ∧ (State.setCrane s c x).beds = s.beds ∧
    (State.setCrane s c x).mixes = s.mixes ∧ (State.setCrane s c x).freeCount = s.freeCount ∧
    (State.setCrane s c x).steam = s.steam ∧ (State.setCrane s c x).roster = s.roster ∧
    (State.setCrane s c x).loops = s.loops ∧ (State.setCrane s c x).rosterLoaded = s.rosterLoaded ∧
    (State.setCrane s c x).stock = s.stock ∧ (State.setCrane s c x).yardStop = s.yardStop ∧
    (State.setCrane s c x).cranesLoaded = s.cranesLoaded ∧ (State.setCrane s c x).moves = s.moves ∧
    (State.setCrane s c x).clockMs = s.clockMs :=
  ⟨rfl, rfl, rfl, rfl, rfl, rfl, rfl, rfl, rfl, rfl, rfl, rfl, rfl, rfl, rfl, rfl, rfl, rfl, rfl⟩

@[simp] theorem putMove_keeps (s : State) (i : Fin 16) (m : Move) :
    (State.putMove s i m).pending = s.pending ∧ (State.putMove s i m).mem = s.mem ∧
    (State.putMove s i m).host = s.host ∧ (State.putMove s i m).path = s.path ∧ (State.putMove s i m).dir = s.dir ∧
    (State.putMove s i m).load = s.load ∧ (State.putMove s i m).notices = s.notices ∧
    (State.putMove s i m).beds = s.beds ∧ (State.putMove s i m).mixes = s.mixes ∧
    (State.putMove s i m).freeCount = s.freeCount ∧ (State.putMove s i m).steam = s.steam ∧
    (State.putMove s i m).roster = s.roster ∧ (State.putMove s i m).loops = s.loops ∧
    (State.putMove s i m).rosterLoaded = s.rosterLoaded ∧ (State.putMove s i m).stock = s.stock ∧
    (State.putMove s i m).cranes = s.cranes ∧ (State.putMove s i m).yardStop = s.yardStop ∧
    (State.putMove s i m).cranesLoaded = s.cranesLoaded ∧ (State.putMove s i m).clockMs = s.clockMs :=
  ⟨rfl, rfl, rfl, rfl, rfl, rfl, rfl, rfl, rfl, rfl, rfl, rfl, rfl, rfl, rfl, rfl, rfl, rfl, rfl⟩

@[simp] theorem setPiece_keeps (s : State) (n : Nat) (p : Piece) :
    (State.setPiece s n p).pending = s.pending ∧ (State.setPiece s n p).mem = s.mem ∧
    (State.setPiece s n p).host = s.host ∧ (State.setPiece s n p).path = s.path ∧
    (State.setPiece s n p).dir = s.dir ∧ (State.setPiece s n p).load = s.load ∧
    (State.setPiece s n p).notices = s.notices ∧ (State.setPiece s n p).beds = s.beds ∧
    (State.setPiece s n p).mixes = s.mixes ∧ (State.setPiece s n p).freeCount = s.freeCount ∧
    (State.setPiece s n p).steam = s.steam ∧ (State.setPiece s n p).roster = s.roster ∧
    (State.setPiece s n p).loops = s.loops ∧ (State.setPiece s n p).rosterLoaded = s.rosterLoaded ∧
    (State.setPiece s n p).cranes = s.cranes ∧ (State.setPiece s n p).yardStop = s.yardStop ∧
    (State.setPiece s n p).cranesLoaded = s.cranesLoaded ∧ (State.setPiece s n p).moves = s.moves ∧
    (State.setPiece s n p).clockMs = s.clockMs :=
  ⟨rfl, rfl, rfl, rfl, rfl, rfl, rfl, rfl, rfl, rfl, rfl, rfl, rfl, rfl, rfl, rfl, rfl, rfl, rfl⟩

@[simp] theorem setSlot_keeps (s : State) (n : Nat) (x : Slot) :
    (State.setSlot s n x).pending = s.pending ∧ (State.setSlot s n x).mem = s.mem ∧
    (State.setSlot s n x).host = s.host ∧ (State.setSlot s n x).path = s.path ∧ (State.setSlot s n x).dir = s.dir ∧
    (State.setSlot s n x).load = s.load ∧ (State.setSlot s n x).notices = s.notices ∧
    (State.setSlot s n x).beds = s.beds ∧ (State.setSlot s n x).mixes = s.mixes ∧
    (State.setSlot s n x).freeCount = s.freeCount ∧ (State.setSlot s n x).steam = s.steam ∧
    (State.setSlot s n x).roster = s.roster ∧ (State.setSlot s n x).loops = s.loops ∧
    (State.setSlot s n x).rosterLoaded = s.rosterLoaded ∧ (State.setSlot s n x).cranes = s.cranes ∧
    (State.setSlot s n x).yardStop = s.yardStop ∧ (State.setSlot s n x).cranesLoaded = s.cranesLoaded ∧
    (State.setSlot s n x).moves = s.moves ∧ (State.setSlot s n x).clockMs = s.clockMs :=
  ⟨rfl, rfl, rfl, rfl, rfl, rfl, rfl, rfl, rfl, rfl, rfl, rfl, rfl, rfl, rfl, rfl, rfl, rfl, rfl⟩

@[simp] theorem withPath_keeps (s : State) (p : PathUnit) :
    (State.withPath s p).pending = s.pending ∧ (State.withPath s p).mem = s.mem ∧
    (State.withPath s p).host = s.host ∧ (State.withPath s p).dir = s.dir ∧ (State.withPath s p).load = s.load ∧
    (State.withPath s p).notices = s.notices ∧ (State.withPath s p).beds = s.beds ∧
    (State.withPath s p).mixes = s.mixes ∧ (State.withPath s p).freeCount = s.freeCount ∧
    (State.withPath s p).steam = s.steam ∧ (State.withPath s p).roster = s.roster ∧
    (State.withPath s p).loops = s.loops ∧ (State.withPath s p).rosterLoaded = s.rosterLoaded ∧
    (State.withPath s p).stock = s.stock ∧ (State.withPath s p).cranes = s.cranes ∧
    (State.withPath s p).yardStop = s.yardStop ∧ (State.withPath s p).cranesLoaded = s.cranesLoaded ∧
    (State.withPath s p).moves = s.moves ∧ (State.withPath s p).clockMs = s.clockMs :=
  ⟨rfl, rfl, rfl, rfl, rfl, rfl, rfl, rfl, rfl, rfl, rfl, rfl, rfl, rfl, rfl, rfl, rfl, rfl, rfl⟩

@[simp] theorem withNotices_keeps (s : State) (n : NoticeUnit) :
    (State.withNotices s n).pending = s.pending ∧ (State.withNotices s n).mem = s.mem ∧
    (State.withNotices s n).host = s.host ∧ (State.withNotices s n).path = s.path ∧
    (State.withNotices s n).dir = s.dir ∧ (State.withNotices s n).load = s.load ∧
    (State.withNotices s n).beds = s.beds ∧ (State.withNotices s n).mixes = s.mixes ∧
    (State.withNotices s n).freeCount = s.freeCount ∧ (State.withNotices s n).steam = s.steam ∧
    (State.withNotices s n).roster = s.roster ∧ (State.withNotices s n).loops = s.loops ∧
    (State.withNotices s n).rosterLoaded = s.rosterLoaded ∧ (State.withNotices s n).stock = s.stock ∧
    (State.withNotices s n).cranes = s.cranes ∧ (State.withNotices s n).yardStop = s.yardStop ∧
    (State.withNotices s n).cranesLoaded = s.cranesLoaded ∧ (State.withNotices s n).moves = s.moves ∧
    (State.withNotices s n).clockMs = s.clockMs :=
  ⟨rfl, rfl, rfl, rfl, rfl, rfl, rfl, rfl, rfl, rfl, rfl, rfl, rfl, rfl, rfl, rfl, rfl, rfl, rfl⟩

@[simp] theorem setSteamBed_keeps (s : State) (b : Fin 24) (x : SteamBed) :
    (State.setSteamBed s b x).pending = s.pending ∧ (State.setSteamBed s b x).mem = s.mem ∧
    (State.setSteamBed s b x).host = s.host ∧ (State.setSteamBed s b x).path = s.path ∧
    (State.setSteamBed s b x).dir = s.dir ∧ (State.setSteamBed s b x).load = s.load ∧
    (State.setSteamBed s b x).notices = s.notices ∧ (State.setSteamBed s b x).mixes = s.mixes ∧
    (State.setSteamBed s b x).freeCount = s.freeCount ∧ (State.setSteamBed s b x).steam = s.steam ∧
    (State.setSteamBed s b x).roster = s.roster ∧ (State.setSteamBed s b x).loops = s.loops ∧
    (State.setSteamBed s b x).rosterLoaded = s.rosterLoaded ∧ (State.setSteamBed s b x).stock = s.stock ∧
    (State.setSteamBed s b x).cranes = s.cranes ∧ (State.setSteamBed s b x).yardStop = s.yardStop ∧
    (State.setSteamBed s b x).cranesLoaded = s.cranesLoaded ∧ (State.setSteamBed s b x).moves = s.moves ∧
    (State.setSteamBed s b x).clockMs = s.clockMs :=
  ⟨rfl, rfl, rfl, rfl, rfl, rfl, rfl, rfl, rfl, rfl, rfl, rfl, rfl, rfl, rfl, rfl, rfl, rfl, rfl⟩

@[simp] theorem withSteam_keeps (s : State) (u : SteamUnit) :
    (State.withSteam s u).pending = s.pending ∧ (State.withSteam s u).mem = s.mem ∧
    (State.withSteam s u).host = s.host ∧ (State.withSteam s u).path = s.path ∧ (State.withSteam s u).dir = s.dir ∧
    (State.withSteam s u).load = s.load ∧ (State.withSteam s u).notices = s.notices ∧
    (State.withSteam s u).beds = s.beds ∧ (State.withSteam s u).mixes = s.mixes ∧
    (State.withSteam s u).freeCount = s.freeCount ∧ (State.withSteam s u).roster = s.roster ∧
    (State.withSteam s u).loops = s.loops ∧ (State.withSteam s u).rosterLoaded = s.rosterLoaded ∧
    (State.withSteam s u).stock = s.stock ∧ (State.withSteam s u).cranes = s.cranes ∧
    (State.withSteam s u).yardStop = s.yardStop ∧ (State.withSteam s u).cranesLoaded = s.cranesLoaded ∧
    (State.withSteam s u).moves = s.moves ∧ (State.withSteam s u).clockMs = s.clockMs :=
  ⟨rfl, rfl, rfl, rfl, rfl, rfl, rfl, rfl, rfl, rfl, rfl, rfl, rfl, rfl, rfl, rfl, rfl, rfl, rfl⟩

@[simp] theorem setCureUnit_keeps (s : State) (b : Fin 24) (x : CuringUnit) :
    (State.setCureUnit s b x).pending = s.pending ∧ (State.setCureUnit s b x).mem = s.mem ∧
    (State.setCureUnit s b x).host = s.host ∧ (State.setCureUnit s b x).path = s.path ∧
    (State.setCureUnit s b x).dir = s.dir ∧ (State.setCureUnit s b x).load = s.load ∧
    (State.setCureUnit s b x).notices = s.notices ∧ (State.setCureUnit s b x).mixes = s.mixes ∧
    (State.setCureUnit s b x).freeCount = s.freeCount ∧ (State.setCureUnit s b x).steam = s.steam ∧
    (State.setCureUnit s b x).roster = s.roster ∧ (State.setCureUnit s b x).loops = s.loops ∧
    (State.setCureUnit s b x).rosterLoaded = s.rosterLoaded ∧ (State.setCureUnit s b x).stock = s.stock ∧
    (State.setCureUnit s b x).cranes = s.cranes ∧ (State.setCureUnit s b x).yardStop = s.yardStop ∧
    (State.setCureUnit s b x).cranesLoaded = s.cranesLoaded ∧ (State.setCureUnit s b x).moves = s.moves ∧
    (State.setCureUnit s b x).clockMs = s.clockMs :=
  ⟨rfl, rfl, rfl, rfl, rfl, rfl, rfl, rfl, rfl, rfl, rfl, rfl, rfl, rfl, rfl, rfl, rfl, rfl, rfl⟩

@[simp] theorem setContext_keeps (s : State) (b : Fin 24) (c : CureContext) :
    (State.setContext s b c).pending = s.pending ∧ (State.setContext s b c).mem = s.mem ∧
    (State.setContext s b c).host = s.host ∧ (State.setContext s b c).path = s.path ∧
    (State.setContext s b c).dir = s.dir ∧ (State.setContext s b c).load = s.load ∧
    (State.setContext s b c).notices = s.notices ∧ (State.setContext s b c).mixes = s.mixes ∧
    (State.setContext s b c).freeCount = s.freeCount ∧ (State.setContext s b c).steam = s.steam ∧
    (State.setContext s b c).roster = s.roster ∧ (State.setContext s b c).loops = s.loops ∧
    (State.setContext s b c).rosterLoaded = s.rosterLoaded ∧ (State.setContext s b c).stock = s.stock ∧
    (State.setContext s b c).cranes = s.cranes ∧ (State.setContext s b c).yardStop = s.yardStop ∧
    (State.setContext s b c).cranesLoaded = s.cranesLoaded ∧ (State.setContext s b c).moves = s.moves ∧
    (State.setContext s b c).clockMs = s.clockMs :=
  ⟨rfl, rfl, rfl, rfl, rfl, rfl, rfl, rfl, rfl, rfl, rfl, rfl, rfl, rfl, rfl, rfl, rfl, rfl, rfl⟩

@[simp] theorem setTake_keeps (s : State) (b : Fin 24) (t : TakeStage) :
    (State.setTake s b t).pending = s.pending ∧ (State.setTake s b t).mem = s.mem ∧
    (State.setTake s b t).host = s.host ∧ (State.setTake s b t).path = s.path ∧ (State.setTake s b t).dir = s.dir ∧
    (State.setTake s b t).load = s.load ∧ (State.setTake s b t).notices = s.notices ∧
    (State.setTake s b t).mixes = s.mixes ∧ (State.setTake s b t).freeCount = s.freeCount ∧
    (State.setTake s b t).steam = s.steam ∧ (State.setTake s b t).roster = s.roster ∧
    (State.setTake s b t).loops = s.loops ∧ (State.setTake s b t).rosterLoaded = s.rosterLoaded ∧
    (State.setTake s b t).stock = s.stock ∧ (State.setTake s b t).cranes = s.cranes ∧
    (State.setTake s b t).yardStop = s.yardStop ∧ (State.setTake s b t).cranesLoaded = s.cranesLoaded ∧
    (State.setTake s b t).moves = s.moves ∧ (State.setTake s b t).clockMs = s.clockMs :=
  ⟨rfl, rfl, rfl, rfl, rfl, rfl, rfl, rfl, rfl, rfl, rfl, rfl, rfl, rfl, rfl, rfl, rfl, rfl, rfl⟩

@[simp] theorem setBedUnit_keeps (s : State) (b : Fin 24) (x : BedUnit) :
    (State.setBedUnit s b x).pending = s.pending ∧ (State.setBedUnit s b x).mem = s.mem ∧
    (State.setBedUnit s b x).host = s.host ∧ (State.setBedUnit s b x).path = s.path ∧
    (State.setBedUnit s b x).dir = s.dir ∧ (State.setBedUnit s b x).load = s.load ∧
    (State.setBedUnit s b x).notices = s.notices ∧ (State.setBedUnit s b x).mixes = s.mixes ∧
    (State.setBedUnit s b x).freeCount = s.freeCount ∧ (State.setBedUnit s b x).steam = s.steam ∧
    (State.setBedUnit s b x).roster = s.roster ∧ (State.setBedUnit s b x).loops = s.loops ∧
    (State.setBedUnit s b x).rosterLoaded = s.rosterLoaded ∧ (State.setBedUnit s b x).stock = s.stock ∧
    (State.setBedUnit s b x).cranes = s.cranes ∧ (State.setBedUnit s b x).yardStop = s.yardStop ∧
    (State.setBedUnit s b x).cranesLoaded = s.cranesLoaded ∧ (State.setBedUnit s b x).moves = s.moves ∧
    (State.setBedUnit s b x).clockMs = s.clockMs :=
  ⟨rfl, rfl, rfl, rfl, rfl, rfl, rfl, rfl, rfl, rfl, rfl, rfl, rfl, rfl, rfl, rfl, rfl, rfl, rfl⟩

@[simp] theorem withMoves_keeps (s : State) (u : MoveUnit) :
    (State.withMoves s u).pending = s.pending ∧ (State.withMoves s u).mem = s.mem ∧
    (State.withMoves s u).host = s.host ∧ (State.withMoves s u).path = s.path ∧ (State.withMoves s u).dir = s.dir ∧
    (State.withMoves s u).load = s.load ∧ (State.withMoves s u).notices = s.notices ∧
    (State.withMoves s u).beds = s.beds ∧ (State.withMoves s u).mixes = s.mixes ∧
    (State.withMoves s u).freeCount = s.freeCount ∧ (State.withMoves s u).steam = s.steam ∧
    (State.withMoves s u).roster = s.roster ∧ (State.withMoves s u).loops = s.loops ∧
    (State.withMoves s u).rosterLoaded = s.rosterLoaded ∧ (State.withMoves s u).stock = s.stock ∧
    (State.withMoves s u).cranes = s.cranes ∧ (State.withMoves s u).yardStop = s.yardStop ∧
    (State.withMoves s u).cranesLoaded = s.cranesLoaded ∧ (State.withMoves s u).clockMs = s.clockMs :=
  ⟨rfl, rfl, rfl, rfl, rfl, rfl, rfl, rfl, rfl, rfl, rfl, rfl, rfl, rfl, rfl, rfl, rfl, rfl, rfl⟩

@[simp] theorem withDir_keeps (s : State) (d : DirectoryUnit) :
    (State.withDir s d).pending = s.pending ∧ (State.withDir s d).mem = s.mem ∧ (State.withDir s d).host = s.host ∧
    (State.withDir s d).path = s.path ∧ (State.withDir s d).load = s.load ∧
    (State.withDir s d).notices = s.notices ∧ (State.withDir s d).beds = s.beds ∧
    (State.withDir s d).mixes = s.mixes ∧ (State.withDir s d).freeCount = s.freeCount ∧
    (State.withDir s d).steam = s.steam ∧ (State.withDir s d).roster = s.roster ∧
    (State.withDir s d).loops = s.loops ∧ (State.withDir s d).rosterLoaded = s.rosterLoaded ∧
    (State.withDir s d).stock = s.stock ∧ (State.withDir s d).cranes = s.cranes ∧
    (State.withDir s d).yardStop = s.yardStop ∧ (State.withDir s d).cranesLoaded = s.cranesLoaded ∧
    (State.withDir s d).moves = s.moves ∧ (State.withDir s d).clockMs = s.clockMs :=
  ⟨rfl, rfl, rfl, rfl, rfl, rfl, rfl, rfl, rfl, rfl, rfl, rfl, rfl, rfl, rfl, rfl, rfl, rfl, rfl⟩

@[simp] theorem withHost_keeps (s : State) (h : HostPort) :
    (State.withHost s h).pending = s.pending ∧ (State.withHost s h).mem = s.mem ∧
    (State.withHost s h).path = s.path ∧ (State.withHost s h).dir = s.dir ∧ (State.withHost s h).load = s.load ∧
    (State.withHost s h).notices = s.notices ∧ (State.withHost s h).beds = s.beds ∧
    (State.withHost s h).mixes = s.mixes ∧ (State.withHost s h).freeCount = s.freeCount ∧
    (State.withHost s h).steam = s.steam ∧ (State.withHost s h).roster = s.roster ∧
    (State.withHost s h).loops = s.loops ∧ (State.withHost s h).rosterLoaded = s.rosterLoaded ∧
    (State.withHost s h).stock = s.stock ∧ (State.withHost s h).cranes = s.cranes ∧
    (State.withHost s h).yardStop = s.yardStop ∧ (State.withHost s h).cranesLoaded = s.cranesLoaded ∧
    (State.withHost s h).moves = s.moves ∧ (State.withHost s h).clockMs = s.clockMs :=
  ⟨rfl, rfl, rfl, rfl, rfl, rfl, rfl, rfl, rfl, rfl, rfl, rfl, rfl, rfl, rfl, rfl, rfl, rfl, rfl⟩

@[simp] theorem withUp_keeps (s : State) (u : UpTransfer) :
    (State.withUp s u).pending = s.pending ∧ (State.withUp s u).mem = s.mem ∧ (State.withUp s u).path = s.path ∧
    (State.withUp s u).dir = s.dir ∧ (State.withUp s u).load = s.load ∧ (State.withUp s u).notices = s.notices ∧
    (State.withUp s u).beds = s.beds ∧ (State.withUp s u).mixes = s.mixes ∧
    (State.withUp s u).freeCount = s.freeCount ∧ (State.withUp s u).steam = s.steam ∧
    (State.withUp s u).roster = s.roster ∧ (State.withUp s u).loops = s.loops ∧
    (State.withUp s u).rosterLoaded = s.rosterLoaded ∧ (State.withUp s u).stock = s.stock ∧
    (State.withUp s u).cranes = s.cranes ∧ (State.withUp s u).yardStop = s.yardStop ∧
    (State.withUp s u).cranesLoaded = s.cranesLoaded ∧ (State.withUp s u).moves = s.moves ∧
    (State.withUp s u).clockMs = s.clockMs :=
  ⟨rfl, rfl, rfl, rfl, rfl, rfl, rfl, rfl, rfl, rfl, rfl, rfl, rfl, rfl, rfl, rfl, rfl, rfl, rfl⟩

@[simp] theorem setMix_keeps (s : State) (n : Nat) (m : Mix) :
    (s.setMix n m).pending = s.pending ∧ (s.setMix n m).mem = s.mem ∧ (s.setMix n m).host = s.host ∧
    (s.setMix n m).path = s.path ∧ (s.setMix n m).dir = s.dir ∧ (s.setMix n m).load = s.load ∧
    (s.setMix n m).notices = s.notices ∧ (s.setMix n m).beds = s.beds ∧ (s.setMix n m).freeCount = s.freeCount ∧
    (s.setMix n m).steam = s.steam ∧ (s.setMix n m).roster = s.roster ∧ (s.setMix n m).loops = s.loops ∧
    (s.setMix n m).rosterLoaded = s.rosterLoaded ∧ (s.setMix n m).stock = s.stock ∧
    (s.setMix n m).cranes = s.cranes ∧ (s.setMix n m).yardStop = s.yardStop ∧
    (s.setMix n m).cranesLoaded = s.cranesLoaded ∧ (s.setMix n m).moves = s.moves ∧
    (s.setMix n m).clockMs = s.clockMs := by
  simp only [State.setMix]
  split <;> simp

/-! ### What an update sets -/

theorem vector_get_set {α : Type} {n : Nat} (v : Vector α n) (i j : Fin n) (x : α) :
    (v.set i x).get j = if i = j then x else v.get j := by
  change (v.set i.val x)[j.val] = if i = j then x else v[j.val]
  simp only [Vector.getElem_set, Fin.ext_iff]

@[simp] theorem bed_setBed (s : State) (b c : Fin 24) (x : Bed) :
    (s.setBed b x).bed c = if b = c then x else s.bed c := vector_get_set s.beds b c x

@[simp] theorem loop_setLoop (s : State) (l k : Fin 4) (x : Loop) :
    (s.setLoop l x).loop k = if l = k then x else s.loop k := vector_get_set s.loops l k x

@[simp] theorem crane_setCrane (s : State) (c d : Fin 2) (x : Crane) :
    (s.setCrane c x).crane d = if c = d then x else s.crane d := vector_get_set s.cranes c d x

@[simp] theorem move_putMove (s : State) (i j : Fin 16) (m : Move) :
    (s.putMove i m).move j = if i = j then m else s.move j := vector_get_set s.moves.table i j m

@[simp] theorem steamBed_setSteamBed (s : State) (b c : Fin 24) (x : SteamBed) :
    (s.setSteamBed b x).steamBed c = if b = c then x else s.steamBed c := by
  simp only [State.setSteamBed, State.steamBed, bed_setBed]
  split <;> simp_all

@[simp] theorem cureUnit_setCureUnit (s : State) (b c : Fin 24) (x : CuringUnit) :
    (s.setCureUnit b x).cureUnit c = if b = c then x else s.cureUnit c := by
  simp only [State.setCureUnit, State.cureUnit, bed_setBed]
  split <;> simp_all

@[simp] theorem bedUnit_setBedUnit (s : State) (b c : Fin 24) (x : BedUnit) :
    (s.setBedUnit b x).bedUnit c = if b = c then x else s.bedUnit c := by
  simp only [State.setBedUnit, State.bedUnit, bed_setBed]
  split <;> simp_all

end Sys2Proof.Machine
end

