-- ==== Sys2Proof/Laws/Folds.lean ====
section
/-! SUPPORT. A change folded over a table or a list leaves what each of its steps leaves. -/

namespace Sys2Proof.Machine

theorem foldl_keeps {α β : Type} (p : State → β) (f : State → α → State) (h : ∀ s x, p (f s x) = p s) (xs : List α)
    (s : State) : p (xs.foldl f s) = p s := by
  induction xs generalizing s with
  | nil => rfl
  | cons x xs ih => rw [List.foldl_cons, ih, h]

theorem forBeds_keeps {β : Type} (p : State → β) (f : Fin 24 → State → State) (h : ∀ b s, p (f b s) = p s) (s : State) :
    p (forBeds f s) = p s := foldl_keeps p _ (fun s b => h b s) _ s

theorem forLoops_keeps {β : Type} (p : State → β) (f : Fin 4 → State → State) (h : ∀ b s, p (f b s) = p s) (s : State) :
    p (forLoops f s) = p s := foldl_keeps p _ (fun s b => h b s) _ s

theorem forCranes_keeps {β : Type} (p : State → β) (f : Fin 2 → State → State) (h : ∀ b s, p (f b s) = p s) (s : State) :
    p (forCranes f s) = p s := foldl_keeps p _ (fun s b => h b s) _ s

theorem forMoves_keeps {β : Type} (p : State → β) (f : Fin 16 → State → State) (h : ∀ b s, p (f b s) = p s) (s : State) :
    p (forMoves f s) = p s := foldl_keeps p _ (fun s b => h b s) _ s

/-- A property that every step of a fold keeps holds after the fold. -/
theorem foldl_induct {α : Type} (P : State → Prop) (f : State → α → State) (h : ∀ s x, P s → P (f s x)) (xs : List α)
    (s : State) (hs : P s) : P (xs.foldl f s) := by
  induction xs generalizing s with
  | nil => exact hs
  | cons x xs ih => exact ih _ (h s x hs)

/-! The same, field by field, for the simplifier. -/

@[simp] theorem foldl_pending {α : Type} (f : State → α → State) (h : ∀ s x, (f s x).pending = s.pending) (xs : List α) (s : State) :
    (xs.foldl f s).pending = s.pending := foldl_keeps (·.pending) f h xs s

@[simp] theorem forBeds_pending (f : Fin 24 → State → State) (h : ∀ b s, (f b s).pending = s.pending) (s : State) :
    (forBeds f s).pending = s.pending := forBeds_keeps (·.pending) f h s

@[simp] theorem forLoops_pending (f : Fin 4 → State → State) (h : ∀ b s, (f b s).pending = s.pending) (s : State) :
    (forLoops f s).pending = s.pending := forLoops_keeps (·.pending) f h s

@[simp] theorem forCranes_pending (f : Fin 2 → State → State) (h : ∀ b s, (f b s).pending = s.pending) (s : State) :
    (forCranes f s).pending = s.pending := forCranes_keeps (·.pending) f h s

@[simp] theorem forMoves_pending (f : Fin 16 → State → State) (h : ∀ b s, (f b s).pending = s.pending) (s : State) :
    (forMoves f s).pending = s.pending := forMoves_keeps (·.pending) f h s

@[simp] theorem foldl_mem {α : Type} (f : State → α → State) (h : ∀ s x, (f s x).mem = s.mem) (xs : List α) (s : State) :
    (xs.foldl f s).mem = s.mem := foldl_keeps (·.mem) f h xs s

@[simp] theorem forBeds_mem (f : Fin 24 → State → State) (h : ∀ b s, (f b s).mem = s.mem) (s : State) :
    (forBeds f s).mem = s.mem := forBeds_keeps (·.mem) f h s

@[simp] theorem forLoops_mem (f : Fin 4 → State → State) (h : ∀ b s, (f b s).mem = s.mem) (s : State) :
    (forLoops f s).mem = s.mem := forLoops_keeps (·.mem) f h s

@[simp] theorem forCranes_mem (f : Fin 2 → State → State) (h : ∀ b s, (f b s).mem = s.mem) (s : State) :
    (forCranes f s).mem = s.mem := forCranes_keeps (·.mem) f h s

@[simp] theorem forMoves_mem (f : Fin 16 → State → State) (h : ∀ b s, (f b s).mem = s.mem) (s : State) :
    (forMoves f s).mem = s.mem := forMoves_keeps (·.mem) f h s

@[simp] theorem foldl_host {α : Type} (f : State → α → State) (h : ∀ s x, (f s x).host = s.host) (xs : List α) (s : State) :
    (xs.foldl f s).host = s.host := foldl_keeps (·.host) f h xs s

@[simp] theorem forBeds_host (f : Fin 24 → State → State) (h : ∀ b s, (f b s).host = s.host) (s : State) :
    (forBeds f s).host = s.host := forBeds_keeps (·.host) f h s

@[simp] theorem forLoops_host (f : Fin 4 → State → State) (h : ∀ b s, (f b s).host = s.host) (s : State) :
    (forLoops f s).host = s.host := forLoops_keeps (·.host) f h s

@[simp] theorem forCranes_host (f : Fin 2 → State → State) (h : ∀ b s, (f b s).host = s.host) (s : State) :
    (forCranes f s).host = s.host := forCranes_keeps (·.host) f h s

@[simp] theorem forMoves_host (f : Fin 16 → State → State) (h : ∀ b s, (f b s).host = s.host) (s : State) :
    (forMoves f s).host = s.host := forMoves_keeps (·.host) f h s

@[simp] theorem foldl_path {α : Type} (f : State → α → State) (h : ∀ s x, (f s x).path = s.path) (xs : List α) (s : State) :
    (xs.foldl f s).path = s.path := foldl_keeps (·.path) f h xs s

@[simp] theorem forBeds_path (f : Fin 24 → State → State) (h : ∀ b s, (f b s).path = s.path) (s : State) :
    (forBeds f s).path = s.path := forBeds_keeps (·.path) f h s

@[simp] theorem forLoops_path (f : Fin 4 → State → State) (h : ∀ b s, (f b s).path = s.path) (s : State) :
    (forLoops f s).path = s.path := forLoops_keeps (·.path) f h s

@[simp] theorem forCranes_path (f : Fin 2 → State → State) (h : ∀ b s, (f b s).path = s.path) (s : State) :
    (forCranes f s).path = s.path := forCranes_keeps (·.path) f h s

@[simp] theorem forMoves_path (f : Fin 16 → State → State) (h : ∀ b s, (f b s).path = s.path) (s : State) :
    (forMoves f s).path = s.path := forMoves_keeps (·.path) f h s

@[simp] theorem foldl_dir {α : Type} (f : State → α → State) (h : ∀ s x, (f s x).dir = s.dir) (xs : List α) (s : State) :
    (xs.foldl f s).dir = s.dir := foldl_keeps (·.dir) f h xs s

@[simp] theorem forBeds_dir (f : Fin 24 → State → State) (h : ∀ b s, (f b s).dir = s.dir) (s : State) :
    (forBeds f s).dir = s.dir := forBeds_keeps (·.dir) f h s

@[simp] theorem forLoops_dir (f : Fin 4 → State → State) (h : ∀ b s, (f b s).dir = s.dir) (s : State) :
    (forLoops f s).dir = s.dir := forLoops_keeps (·.dir) f h s

@[simp] theorem forCranes_dir (f : Fin 2 → State → State) (h : ∀ b s, (f b s).dir = s.dir) (s : State) :
    (forCranes f s).dir = s.dir := forCranes_keeps (·.dir) f h s

@[simp] theorem forMoves_dir (f : Fin 16 → State → State) (h : ∀ b s, (f b s).dir = s.dir) (s : State) :
    (forMoves f s).dir = s.dir := forMoves_keeps (·.dir) f h s

@[simp] theorem foldl_load {α : Type} (f : State → α → State) (h : ∀ s x, (f s x).load = s.load) (xs : List α) (s : State) :
    (xs.foldl f s).load = s.load := foldl_keeps (·.load) f h xs s

@[simp] theorem forBeds_load (f : Fin 24 → State → State) (h : ∀ b s, (f b s).load = s.load) (s : State) :
    (forBeds f s).load = s.load := forBeds_keeps (·.load) f h s

@[simp] theorem forLoops_load (f : Fin 4 → State → State) (h : ∀ b s, (f b s).load = s.load) (s : State) :
    (forLoops f s).load = s.load := forLoops_keeps (·.load) f h s

@[simp] theorem forCranes_load (f : Fin 2 → State → State) (h : ∀ b s, (f b s).load = s.load) (s : State) :
    (forCranes f s).load = s.load := forCranes_keeps (·.load) f h s

@[simp] theorem forMoves_load (f : Fin 16 → State → State) (h : ∀ b s, (f b s).load = s.load) (s : State) :
    (forMoves f s).load = s.load := forMoves_keeps (·.load) f h s

@[simp] theorem foldl_mixes {α : Type} (f : State → α → State) (h : ∀ s x, (f s x).mixes = s.mixes) (xs : List α) (s : State) :
    (xs.foldl f s).mixes = s.mixes := foldl_keeps (·.mixes) f h xs s

@[simp] theorem forBeds_mixes (f : Fin 24 → State → State) (h : ∀ b s, (f b s).mixes = s.mixes) (s : State) :
    (forBeds f s).mixes = s.mixes := forBeds_keeps (·.mixes) f h s

@[simp] theorem forLoops_mixes (f : Fin 4 → State → State) (h : ∀ b s, (f b s).mixes = s.mixes) (s : State) :
    (forLoops f s).mixes = s.mixes := forLoops_keeps (·.mixes) f h s

@[simp] theorem forCranes_mixes (f : Fin 2 → State → State) (h : ∀ b s, (f b s).mixes = s.mixes) (s : State) :
    (forCranes f s).mixes = s.mixes := forCranes_keeps (·.mixes) f h s

@[simp] theorem forMoves_mixes (f : Fin 16 → State → State) (h : ∀ b s, (f b s).mixes = s.mixes) (s : State) :
    (forMoves f s).mixes = s.mixes := forMoves_keeps (·.mixes) f h s

@[simp] theorem foldl_freeCount {α : Type} (f : State → α → State) (h : ∀ s x, (f s x).freeCount = s.freeCount) (xs : List α) (s : State) :
    (xs.foldl f s).freeCount = s.freeCount := foldl_keeps (·.freeCount) f h xs s

@[simp] theorem forBeds_freeCount (f : Fin 24 → State → State) (h : ∀ b s, (f b s).freeCount = s.freeCount) (s : State) :
    (forBeds f s).freeCount = s.freeCount := forBeds_keeps (·.freeCount) f h s

@[simp] theorem forLoops_freeCount (f : Fin 4 → State → State) (h : ∀ b s, (f b s).freeCount = s.freeCount) (s : State) :
    (forLoops f s).freeCount = s.freeCount := forLoops_keeps (·.freeCount) f h s

@[simp] theorem forCranes_freeCount (f : Fin 2 → State → State) (h : ∀ b s, (f b s).freeCount = s.freeCount) (s : State) :
    (forCranes f s).freeCount = s.freeCount := forCranes_keeps (·.freeCount) f h s

@[simp] theorem forMoves_freeCount (f : Fin 16 → State → State) (h : ∀ b s, (f b s).freeCount = s.freeCount) (s : State) :
    (forMoves f s).freeCount = s.freeCount := forMoves_keeps (·.freeCount) f h s

@[simp] theorem foldl_notices {α : Type} (f : State → α → State) (h : ∀ s x, (f s x).notices = s.notices) (xs : List α) (s : State) :
    (xs.foldl f s).notices = s.notices := foldl_keeps (·.notices) f h xs s

@[simp] theorem forBeds_notices (f : Fin 24 → State → State) (h : ∀ b s, (f b s).notices = s.notices) (s : State) :
    (forBeds f s).notices = s.notices := forBeds_keeps (·.notices) f h s

@[simp] theorem forLoops_notices (f : Fin 4 → State → State) (h : ∀ b s, (f b s).notices = s.notices) (s : State) :
    (forLoops f s).notices = s.notices := forLoops_keeps (·.notices) f h s

@[simp] theorem forCranes_notices (f : Fin 2 → State → State) (h : ∀ b s, (f b s).notices = s.notices) (s : State) :
    (forCranes f s).notices = s.notices := forCranes_keeps (·.notices) f h s

@[simp] theorem forMoves_notices (f : Fin 16 → State → State) (h : ∀ b s, (f b s).notices = s.notices) (s : State) :
    (forMoves f s).notices = s.notices := forMoves_keeps (·.notices) f h s

@[simp] theorem foldl_steam {α : Type} (f : State → α → State) (h : ∀ s x, (f s x).steam = s.steam) (xs : List α) (s : State) :
    (xs.foldl f s).steam = s.steam := foldl_keeps (·.steam) f h xs s

@[simp] theorem forBeds_steam (f : Fin 24 → State → State) (h : ∀ b s, (f b s).steam = s.steam) (s : State) :
    (forBeds f s).steam = s.steam := forBeds_keeps (·.steam) f h s

@[simp] theorem forLoops_steam (f : Fin 4 → State → State) (h : ∀ b s, (f b s).steam = s.steam) (s : State) :
    (forLoops f s).steam = s.steam := forLoops_keeps (·.steam) f h s

@[simp] theorem forCranes_steam (f : Fin 2 → State → State) (h : ∀ b s, (f b s).steam = s.steam) (s : State) :
    (forCranes f s).steam = s.steam := forCranes_keeps (·.steam) f h s

@[simp] theorem forMoves_steam (f : Fin 16 → State → State) (h : ∀ b s, (f b s).steam = s.steam) (s : State) :
    (forMoves f s).steam = s.steam := forMoves_keeps (·.steam) f h s

@[simp] theorem foldl_roster {α : Type} (f : State → α → State) (h : ∀ s x, (f s x).roster = s.roster) (xs : List α) (s : State) :
    (xs.foldl f s).roster = s.roster := foldl_keeps (·.roster) f h xs s

@[simp] theorem forBeds_roster (f : Fin 24 → State → State) (h : ∀ b s, (f b s).roster = s.roster) (s : State) :
    (forBeds f s).roster = s.roster := forBeds_keeps (·.roster) f h s

@[simp] theorem forLoops_roster (f : Fin 4 → State → State) (h : ∀ b s, (f b s).roster = s.roster) (s : State) :
    (forLoops f s).roster = s.roster := forLoops_keeps (·.roster) f h s

@[simp] theorem forCranes_roster (f : Fin 2 → State → State) (h : ∀ b s, (f b s).roster = s.roster) (s : State) :
    (forCranes f s).roster = s.roster := forCranes_keeps (·.roster) f h s

@[simp] theorem forMoves_roster (f : Fin 16 → State → State) (h : ∀ b s, (f b s).roster = s.roster) (s : State) :
    (forMoves f s).roster = s.roster := forMoves_keeps (·.roster) f h s

@[simp] theorem foldl_loops {α : Type} (f : State → α → State) (h : ∀ s x, (f s x).loops = s.loops) (xs : List α) (s : State) :
    (xs.foldl f s).loops = s.loops := foldl_keeps (·.loops) f h xs s

@[simp] theorem forBeds_loops (f : Fin 24 → State → State) (h : ∀ b s, (f b s).loops = s.loops) (s : State) :
    (forBeds f s).loops = s.loops := forBeds_keeps (·.loops) f h s

@[simp] theorem forLoops_loops (f : Fin 4 → State → State) (h : ∀ b s, (f b s).loops = s.loops) (s : State) :
    (forLoops f s).loops = s.loops := forLoops_keeps (·.loops) f h s

@[simp] theorem forCranes_loops (f : Fin 2 → State → State) (h : ∀ b s, (f b s).loops = s.loops) (s : State) :
    (forCranes f s).loops = s.loops := forCranes_keeps (·.loops) f h s

@[simp] theorem forMoves_loops (f : Fin 16 → State → State) (h : ∀ b s, (f b s).loops = s.loops) (s : State) :
    (forMoves f s).loops = s.loops := forMoves_keeps (·.loops) f h s

@[simp] theorem foldl_rosterLoaded {α : Type} (f : State → α → State) (h : ∀ s x, (f s x).rosterLoaded = s.rosterLoaded) (xs : List α) (s : State) :
    (xs.foldl f s).rosterLoaded = s.rosterLoaded := foldl_keeps (·.rosterLoaded) f h xs s

@[simp] theorem forBeds_rosterLoaded (f : Fin 24 → State → State) (h : ∀ b s, (f b s).rosterLoaded = s.rosterLoaded) (s : State) :
    (forBeds f s).rosterLoaded = s.rosterLoaded := forBeds_keeps (·.rosterLoaded) f h s

@[simp] theorem forLoops_rosterLoaded (f : Fin 4 → State → State) (h : ∀ b s, (f b s).rosterLoaded = s.rosterLoaded) (s : State) :
    (forLoops f s).rosterLoaded = s.rosterLoaded := forLoops_keeps (·.rosterLoaded) f h s

@[simp] theorem forCranes_rosterLoaded (f : Fin 2 → State → State) (h : ∀ b s, (f b s).rosterLoaded = s.rosterLoaded) (s : State) :
    (forCranes f s).rosterLoaded = s.rosterLoaded := forCranes_keeps (·.rosterLoaded) f h s

@[simp] theorem forMoves_rosterLoaded (f : Fin 16 → State → State) (h : ∀ b s, (f b s).rosterLoaded = s.rosterLoaded) (s : State) :
    (forMoves f s).rosterLoaded = s.rosterLoaded := forMoves_keeps (·.rosterLoaded) f h s

@[simp] theorem foldl_stock {α : Type} (f : State → α → State) (h : ∀ s x, (f s x).stock = s.stock) (xs : List α) (s : State) :
    (xs.foldl f s).stock = s.stock := foldl_keeps (·.stock) f h xs s

@[simp] theorem forBeds_stock (f : Fin 24 → State → State) (h : ∀ b s, (f b s).stock = s.stock) (s : State) :
    (forBeds f s).stock = s.stock := forBeds_keeps (·.stock) f h s

@[simp] theorem forLoops_stock (f : Fin 4 → State → State) (h : ∀ b s, (f b s).stock = s.stock) (s : State) :
    (forLoops f s).stock = s.stock := forLoops_keeps (·.stock) f h s

@[simp] theorem forCranes_stock (f : Fin 2 → State → State) (h : ∀ b s, (f b s).stock = s.stock) (s : State) :
    (forCranes f s).stock = s.stock := forCranes_keeps (·.stock) f h s

@[simp] theorem forMoves_stock (f : Fin 16 → State → State) (h : ∀ b s, (f b s).stock = s.stock) (s : State) :
    (forMoves f s).stock = s.stock := forMoves_keeps (·.stock) f h s

@[simp] theorem foldl_cranes {α : Type} (f : State → α → State) (h : ∀ s x, (f s x).cranes = s.cranes) (xs : List α) (s : State) :
    (xs.foldl f s).cranes = s.cranes := foldl_keeps (·.cranes) f h xs s

@[simp] theorem forBeds_cranes (f : Fin 24 → State → State) (h : ∀ b s, (f b s).cranes = s.cranes) (s : State) :
    (forBeds f s).cranes = s.cranes := forBeds_keeps (·.cranes) f h s

@[simp] theorem forLoops_cranes (f : Fin 4 → State → State) (h : ∀ b s, (f b s).cranes = s.cranes) (s : State) :
    (forLoops f s).cranes = s.cranes := forLoops_keeps (·.cranes) f h s

@[simp] theorem forCranes_cranes (f : Fin 2 → State → State) (h : ∀ b s, (f b s).cranes = s.cranes) (s : State) :
    (forCranes f s).cranes = s.cranes := forCranes_keeps (·.cranes) f h s

@[simp] theorem forMoves_cranes (f : Fin 16 → State → State) (h : ∀ b s, (f b s).cranes = s.cranes) (s : State) :
    (forMoves f s).cranes = s.cranes := forMoves_keeps (·.cranes) f h s

@[simp] theorem foldl_yardStop {α : Type} (f : State → α → State) (h : ∀ s x, (f s x).yardStop = s.yardStop) (xs : List α) (s : State) :
    (xs.foldl f s).yardStop = s.yardStop := foldl_keeps (·.yardStop) f h xs s

@[simp] theorem forBeds_yardStop (f : Fin 24 → State → State) (h : ∀ b s, (f b s).yardStop = s.yardStop) (s : State) :
    (forBeds f s).yardStop = s.yardStop := forBeds_keeps (·.yardStop) f h s

@[simp] theorem forLoops_yardStop (f : Fin 4 → State → State) (h : ∀ b s, (f b s).yardStop = s.yardStop) (s : State) :
    (forLoops f s).yardStop = s.yardStop := forLoops_keeps (·.yardStop) f h s

@[simp] theorem forCranes_yardStop (f : Fin 2 → State → State) (h : ∀ b s, (f b s).yardStop = s.yardStop) (s : State) :
    (forCranes f s).yardStop = s.yardStop := forCranes_keeps (·.yardStop) f h s

@[simp] theorem forMoves_yardStop (f : Fin 16 → State → State) (h : ∀ b s, (f b s).yardStop = s.yardStop) (s : State) :
    (forMoves f s).yardStop = s.yardStop := forMoves_keeps (·.yardStop) f h s

@[simp] theorem foldl_cranesLoaded {α : Type} (f : State → α → State) (h : ∀ s x, (f s x).cranesLoaded = s.cranesLoaded) (xs : List α) (s : State) :
    (xs.foldl f s).cranesLoaded = s.cranesLoaded := foldl_keeps (·.cranesLoaded) f h xs s

@[simp] theorem forBeds_cranesLoaded (f : Fin 24 → State → State) (h : ∀ b s, (f b s).cranesLoaded = s.cranesLoaded) (s : State) :
    (forBeds f s).cranesLoaded = s.cranesLoaded := forBeds_keeps (·.cranesLoaded) f h s

@[simp] theorem forLoops_cranesLoaded (f : Fin 4 → State → State) (h : ∀ b s, (f b s).cranesLoaded = s.cranesLoaded) (s : State) :
    (forLoops f s).cranesLoaded = s.cranesLoaded := forLoops_keeps (·.cranesLoaded) f h s

@[simp] theorem forCranes_cranesLoaded (f : Fin 2 → State → State) (h : ∀ b s, (f b s).cranesLoaded = s.cranesLoaded) (s : State) :
    (forCranes f s).cranesLoaded = s.cranesLoaded := forCranes_keeps (·.cranesLoaded) f h s

@[simp] theorem forMoves_cranesLoaded (f : Fin 16 → State → State) (h : ∀ b s, (f b s).cranesLoaded = s.cranesLoaded) (s : State) :
    (forMoves f s).cranesLoaded = s.cranesLoaded := forMoves_keeps (·.cranesLoaded) f h s

@[simp] theorem foldl_moves {α : Type} (f : State → α → State) (h : ∀ s x, (f s x).moves = s.moves) (xs : List α) (s : State) :
    (xs.foldl f s).moves = s.moves := foldl_keeps (·.moves) f h xs s

@[simp] theorem forBeds_moves (f : Fin 24 → State → State) (h : ∀ b s, (f b s).moves = s.moves) (s : State) :
    (forBeds f s).moves = s.moves := forBeds_keeps (·.moves) f h s

@[simp] theorem forLoops_moves (f : Fin 4 → State → State) (h : ∀ b s, (f b s).moves = s.moves) (s : State) :
    (forLoops f s).moves = s.moves := forLoops_keeps (·.moves) f h s

@[simp] theorem forCranes_moves (f : Fin 2 → State → State) (h : ∀ b s, (f b s).moves = s.moves) (s : State) :
    (forCranes f s).moves = s.moves := forCranes_keeps (·.moves) f h s

@[simp] theorem forMoves_moves (f : Fin 16 → State → State) (h : ∀ b s, (f b s).moves = s.moves) (s : State) :
    (forMoves f s).moves = s.moves := forMoves_keeps (·.moves) f h s

@[simp] theorem foldl_clockMs {α : Type} (f : State → α → State) (h : ∀ s x, (f s x).clockMs = s.clockMs) (xs : List α) (s : State) :
    (xs.foldl f s).clockMs = s.clockMs := foldl_keeps (·.clockMs) f h xs s

@[simp] theorem forBeds_clockMs (f : Fin 24 → State → State) (h : ∀ b s, (f b s).clockMs = s.clockMs) (s : State) :
    (forBeds f s).clockMs = s.clockMs := forBeds_keeps (·.clockMs) f h s

@[simp] theorem forLoops_clockMs (f : Fin 4 → State → State) (h : ∀ b s, (f b s).clockMs = s.clockMs) (s : State) :
    (forLoops f s).clockMs = s.clockMs := forLoops_keeps (·.clockMs) f h s

@[simp] theorem forCranes_clockMs (f : Fin 2 → State → State) (h : ∀ b s, (f b s).clockMs = s.clockMs) (s : State) :
    (forCranes f s).clockMs = s.clockMs := forCranes_keeps (·.clockMs) f h s

@[simp] theorem forMoves_clockMs (f : Fin 16 → State → State) (h : ∀ b s, (f b s).clockMs = s.clockMs) (s : State) :
    (forMoves f s).clockMs = s.clockMs := forMoves_keeps (·.clockMs) f h s

@[simp] theorem foldl_beds {α : Type} (f : State → α → State) (h : ∀ s x, (f s x).beds = s.beds) (xs : List α) (s : State) :
    (xs.foldl f s).beds = s.beds := foldl_keeps (·.beds) f h xs s

@[simp] theorem forBeds_beds (f : Fin 24 → State → State) (h : ∀ b s, (f b s).beds = s.beds) (s : State) :
    (forBeds f s).beds = s.beds := forBeds_keeps (·.beds) f h s

@[simp] theorem forLoops_beds (f : Fin 4 → State → State) (h : ∀ b s, (f b s).beds = s.beds) (s : State) :
    (forLoops f s).beds = s.beds := forLoops_keeps (·.beds) f h s

@[simp] theorem forCranes_beds (f : Fin 2 → State → State) (h : ∀ b s, (f b s).beds = s.beds) (s : State) :
    (forCranes f s).beds = s.beds := forCranes_keeps (·.beds) f h s

@[simp] theorem forMoves_beds (f : Fin 16 → State → State) (h : ∀ b s, (f b s).beds = s.beds) (s : State) :
    (forMoves f s).beds = s.beds := forMoves_keeps (·.beds) f h s

end Sys2Proof.Machine
end

