-- ==== Sys2Proof/Laws/Path.lean ====
section
/-! SUPPORT. What each operation of Machine/Path.lean leaves as it was: the fields of State it never writes; and what a
refresh slot carries once words are joined to it. -/

namespace Sys2Proof.Machine

@[simp] theorem refresh_keeps (r : Region) (index : Nat) (words : List (Nat × Word)) (s : State) :
    (refresh r index words s).pending = s.pending ∧ (refresh r index words s).mem = s.mem ∧
    (refresh r index words s).host = s.host ∧ (refresh r index words s).dir = s.dir ∧
    (refresh r index words s).load = s.load ∧ (refresh r index words s).beds = s.beds ∧
    (refresh r index words s).mixes = s.mixes ∧ (refresh r index words s).freeCount = s.freeCount ∧
    (refresh r index words s).steam = s.steam ∧ (refresh r index words s).roster = s.roster ∧
    (refresh r index words s).loops = s.loops ∧ (refresh r index words s).rosterLoaded = s.rosterLoaded ∧
    (refresh r index words s).stock = s.stock ∧ (refresh r index words s).cranes = s.cranes ∧
    (refresh r index words s).yardStop = s.yardStop ∧ (refresh r index words s).cranesLoaded = s.cranesLoaded ∧
    (refresh r index words s).moves = s.moves ∧ (refresh r index words s).clockMs = s.clockMs := by
  simp only [refresh]
  (repeat' split) <;> simp

@[simp] theorem refreshDirectory_keeps (words : List (Nat × Word)) (s : State) :
    (refreshDirectory words s).pending = s.pending ∧ (refreshDirectory words s).mem = s.mem ∧
    (refreshDirectory words s).host = s.host ∧ (refreshDirectory words s).dir = s.dir ∧
    (refreshDirectory words s).load = s.load ∧ (refreshDirectory words s).beds = s.beds ∧
    (refreshDirectory words s).mixes = s.mixes ∧ (refreshDirectory words s).freeCount = s.freeCount ∧
    (refreshDirectory words s).steam = s.steam ∧ (refreshDirectory words s).roster = s.roster ∧
    (refreshDirectory words s).loops = s.loops ∧ (refreshDirectory words s).rosterLoaded = s.rosterLoaded ∧
    (refreshDirectory words s).stock = s.stock ∧ (refreshDirectory words s).cranes = s.cranes ∧
    (refreshDirectory words s).yardStop = s.yardStop ∧ (refreshDirectory words s).cranesLoaded = s.cranesLoaded ∧
    (refreshDirectory words s).moves = s.moves ∧ (refreshDirectory words s).clockMs = s.clockMs := by
  simp only [refreshDirectory]
  simp

@[simp] theorem askRead_keeps (rd : OwnRead) (s : State) :
    (askRead rd s).pending = s.pending ∧ (askRead rd s).mem = s.mem ∧ (askRead rd s).host = s.host ∧
    (askRead rd s).dir = s.dir ∧ (askRead rd s).load = s.load ∧ (askRead rd s).beds = s.beds ∧
    (askRead rd s).mixes = s.mixes ∧ (askRead rd s).freeCount = s.freeCount ∧ (askRead rd s).steam = s.steam ∧
    (askRead rd s).roster = s.roster ∧ (askRead rd s).loops = s.loops ∧
    (askRead rd s).rosterLoaded = s.rosterLoaded ∧ (askRead rd s).stock = s.stock ∧
    (askRead rd s).cranes = s.cranes ∧ (askRead rd s).yardStop = s.yardStop ∧
    (askRead rd s).cranesLoaded = s.cranesLoaded ∧ (askRead rd s).moves = s.moves ∧
    (askRead rd s).clockMs = s.clockMs := by
  simp only [askRead]
  (repeat' split) <;> simp

@[simp] theorem askRecord_keeps (purpose : ReadFor) (r : Region) (index : Nat) (s : State) :
    (askRecord purpose r index s).pending = s.pending ∧ (askRecord purpose r index s).mem = s.mem ∧
    (askRecord purpose r index s).host = s.host ∧ (askRecord purpose r index s).dir = s.dir ∧
    (askRecord purpose r index s).load = s.load ∧ (askRecord purpose r index s).beds = s.beds ∧
    (askRecord purpose r index s).mixes = s.mixes ∧ (askRecord purpose r index s).freeCount = s.freeCount ∧
    (askRecord purpose r index s).steam = s.steam ∧ (askRecord purpose r index s).roster = s.roster ∧
    (askRecord purpose r index s).loops = s.loops ∧ (askRecord purpose r index s).rosterLoaded = s.rosterLoaded ∧
    (askRecord purpose r index s).stock = s.stock ∧ (askRecord purpose r index s).cranes = s.cranes ∧
    (askRecord purpose r index s).yardStop = s.yardStop ∧
    (askRecord purpose r index s).cranesLoaded = s.cranesLoaded ∧ (askRecord purpose r index s).moves = s.moves ∧
    (askRecord purpose r index s).clockMs = s.clockMs := by
  simp only [askRecord]
  simp

@[simp] theorem handJob_keeps (j : Job) (s : State) :
    (handJob j s).pending = s.pending ∧ (handJob j s).mem = s.mem ∧ (handJob j s).host = s.host ∧
    (handJob j s).dir = s.dir ∧ (handJob j s).load = s.load ∧ (handJob j s).beds = s.beds ∧
    (handJob j s).mixes = s.mixes ∧ (handJob j s).freeCount = s.freeCount ∧ (handJob j s).steam = s.steam ∧
    (handJob j s).roster = s.roster ∧ (handJob j s).loops = s.loops ∧ (handJob j s).rosterLoaded = s.rosterLoaded ∧
    (handJob j s).stock = s.stock ∧ (handJob j s).cranes = s.cranes ∧ (handJob j s).yardStop = s.yardStop ∧
    (handJob j s).cranesLoaded = s.cranesLoaded ∧ (handJob j s).moves = s.moves ∧ (handJob j s).clockMs = s.clockMs := by
  simp only [handJob]
  simp

@[simp] theorem joinSlotWait_keeps (s : State) (p : Party) :
    (State.joinSlotWait s p).pending = s.pending ∧ (State.joinSlotWait s p).mem = s.mem ∧
    (State.joinSlotWait s p).host = s.host ∧ (State.joinSlotWait s p).dir = s.dir ∧
    (State.joinSlotWait s p).load = s.load ∧ (State.joinSlotWait s p).beds = s.beds ∧
    (State.joinSlotWait s p).mixes = s.mixes ∧ (State.joinSlotWait s p).freeCount = s.freeCount ∧
    (State.joinSlotWait s p).steam = s.steam ∧ (State.joinSlotWait s p).roster = s.roster ∧
    (State.joinSlotWait s p).loops = s.loops ∧ (State.joinSlotWait s p).rosterLoaded = s.rosterLoaded ∧
    (State.joinSlotWait s p).stock = s.stock ∧ (State.joinSlotWait s p).cranes = s.cranes ∧
    (State.joinSlotWait s p).yardStop = s.yardStop ∧ (State.joinSlotWait s p).cranesLoaded = s.cranesLoaded ∧
    (State.joinSlotWait s p).moves = s.moves ∧ (State.joinSlotWait s p).clockMs = s.clockMs := by
  simp only [State.joinSlotWait]
  (repeat' split) <;> simp

@[simp] theorem leaveSlotWait_keeps (s : State) (p : Party) :
    (State.leaveSlotWait s p).pending = s.pending ∧ (State.leaveSlotWait s p).mem = s.mem ∧
    (State.leaveSlotWait s p).host = s.host ∧ (State.leaveSlotWait s p).dir = s.dir ∧
    (State.leaveSlotWait s p).load = s.load ∧ (State.leaveSlotWait s p).beds = s.beds ∧
    (State.leaveSlotWait s p).mixes = s.mixes ∧ (State.leaveSlotWait s p).freeCount = s.freeCount ∧
    (State.leaveSlotWait s p).steam = s.steam ∧ (State.leaveSlotWait s p).roster = s.roster ∧
    (State.leaveSlotWait s p).loops = s.loops ∧ (State.leaveSlotWait s p).rosterLoaded = s.rosterLoaded ∧
    (State.leaveSlotWait s p).stock = s.stock ∧ (State.leaveSlotWait s p).cranes = s.cranes ∧
    (State.leaveSlotWait s p).yardStop = s.yardStop ∧ (State.leaveSlotWait s p).cranesLoaded = s.cranesLoaded ∧
    (State.leaveSlotWait s p).moves = s.moves ∧ (State.leaveSlotWait s p).clockMs = s.clockMs := by
  simp only [State.leaveSlotWait]
  simp

theorem ownIssue_keeps (s : State) (out : State) (h : ownIssue s = some out) :
    out.pending = s.pending ∧ out.mem = s.mem ∧ out.host = s.host ∧ out.dir = s.dir ∧ out.load = s.load ∧
    out.beds = s.beds ∧ out.mixes = s.mixes ∧ out.freeCount = s.freeCount ∧ out.steam = s.steam ∧
    out.roster = s.roster ∧ out.loops = s.loops ∧ out.rosterLoaded = s.rosterLoaded ∧ out.stock = s.stock ∧
    out.cranes = s.cranes ∧ out.yardStop = s.yardStop ∧ out.cranesLoaded = s.cranesLoaded ∧ out.moves = s.moves ∧
    out.clockMs = s.clockMs := by
  simp only [ownIssue] at h
  (repeat' split at h) <;> first | (cases h; done) | (cases h; simp)

@[simp] theorem hostIssue_keeps (s : State) :
    (hostIssue s).pending = s.pending ∧ (hostIssue s).mem = s.mem ∧ (hostIssue s).dir = s.dir ∧
    (hostIssue s).load = s.load ∧ (hostIssue s).beds = s.beds ∧ (hostIssue s).mixes = s.mixes ∧
    (hostIssue s).freeCount = s.freeCount ∧ (hostIssue s).steam = s.steam ∧ (hostIssue s).roster = s.roster ∧
    (hostIssue s).loops = s.loops ∧ (hostIssue s).rosterLoaded = s.rosterLoaded ∧ (hostIssue s).stock = s.stock ∧
    (hostIssue s).cranes = s.cranes ∧ (hostIssue s).yardStop = s.yardStop ∧
    (hostIssue s).cranesLoaded = s.cranesLoaded ∧ (hostIssue s).moves = s.moves ∧ (hostIssue s).clockMs = s.clockMs := by
  simp only [hostIssue]
  (repeat' split) <;> simp

@[simp] theorem arbitrate_keeps (s : State) :
    (arbitrate s).pending = s.pending ∧ (arbitrate s).mem = s.mem ∧ (arbitrate s).dir = s.dir ∧
    (arbitrate s).load = s.load ∧ (arbitrate s).beds = s.beds ∧ (arbitrate s).mixes = s.mixes ∧
    (arbitrate s).freeCount = s.freeCount ∧ (arbitrate s).steam = s.steam ∧ (arbitrate s).roster = s.roster ∧
    (arbitrate s).loops = s.loops ∧ (arbitrate s).rosterLoaded = s.rosterLoaded ∧ (arbitrate s).stock = s.stock ∧
    (arbitrate s).cranes = s.cranes ∧ (arbitrate s).yardStop = s.yardStop ∧
    (arbitrate s).cranesLoaded = s.cranesLoaded ∧ (arbitrate s).moves = s.moves ∧ (arbitrate s).clockMs = s.clockMs := by
  simp only [arbitrate]
  split
  · split
    · split
      · rename_i t h
        have k := ownIssue_keeps s t h
        split <;> simp [k]
      · simp
    · cases h : ownIssue s with
      | none => simp
      | some t => simp [ownIssue_keeps s t h]
  · simp

@[simp] theorem offerFault_keeps (addr : Nat) (kind : FaultCode) (source : FaultSource) (s : State) :
    (offerFault addr kind source s).pending = s.pending ∧ (offerFault addr kind source s).mem = s.mem ∧
    (offerFault addr kind source s).host = s.host ∧ (offerFault addr kind source s).dir = s.dir ∧
    (offerFault addr kind source s).load = s.load ∧ (offerFault addr kind source s).beds = s.beds ∧
    (offerFault addr kind source s).mixes = s.mixes ∧ (offerFault addr kind source s).freeCount = s.freeCount ∧
    (offerFault addr kind source s).steam = s.steam ∧ (offerFault addr kind source s).roster = s.roster ∧
    (offerFault addr kind source s).loops = s.loops ∧
    (offerFault addr kind source s).rosterLoaded = s.rosterLoaded ∧
    (offerFault addr kind source s).stock = s.stock ∧ (offerFault addr kind source s).cranes = s.cranes ∧
    (offerFault addr kind source s).yardStop = s.yardStop ∧
    (offerFault addr kind source s).cranesLoaded = s.cranesLoaded ∧
    (offerFault addr kind source s).moves = s.moves ∧ (offerFault addr kind source s).clockMs = s.clockMs := by
  simp only [offerFault]
  (repeat' split) <;> simp

@[simp] theorem setFault_keeps (f : Option FaultRecord) (s : State) :
    (setFault f s).pending = s.pending ∧ (setFault f s).mem = s.mem ∧ (setFault f s).host = s.host ∧
    (setFault f s).dir = s.dir ∧ (setFault f s).load = s.load ∧ (setFault f s).beds = s.beds ∧
    (setFault f s).mixes = s.mixes ∧ (setFault f s).freeCount = s.freeCount ∧ (setFault f s).steam = s.steam ∧
    (setFault f s).roster = s.roster ∧ (setFault f s).loops = s.loops ∧
    (setFault f s).rosterLoaded = s.rosterLoaded ∧ (setFault f s).stock = s.stock ∧
    (setFault f s).cranes = s.cranes ∧ (setFault f s).yardStop = s.yardStop ∧
    (setFault f s).cranesLoaded = s.cranesLoaded ∧ (setFault f s).moves = s.moves ∧
    (setFault f s).clockMs = s.clockMs := by
  simp only [setFault]
  simp

@[simp] theorem recordRefusal_keeps (addr : Nat) (reason : Code) (s : State) :
    (recordRefusal addr reason s).pending = s.pending ∧ (recordRefusal addr reason s).mem = s.mem ∧
    (recordRefusal addr reason s).host = s.host ∧ (recordRefusal addr reason s).dir = s.dir ∧
    (recordRefusal addr reason s).load = s.load ∧ (recordRefusal addr reason s).beds = s.beds ∧
    (recordRefusal addr reason s).mixes = s.mixes ∧ (recordRefusal addr reason s).freeCount = s.freeCount ∧
    (recordRefusal addr reason s).steam = s.steam ∧ (recordRefusal addr reason s).roster = s.roster ∧
    (recordRefusal addr reason s).loops = s.loops ∧ (recordRefusal addr reason s).rosterLoaded = s.rosterLoaded ∧
    (recordRefusal addr reason s).stock = s.stock ∧ (recordRefusal addr reason s).cranes = s.cranes ∧
    (recordRefusal addr reason s).yardStop = s.yardStop ∧
    (recordRefusal addr reason s).cranesLoaded = s.cranesLoaded ∧ (recordRefusal addr reason s).moves = s.moves ∧
    (recordRefusal addr reason s).clockMs = s.clockMs := by
  simp only [recordRefusal]
  simp

/-- With no transfer WAITING in the port there is none to be taken. -/
theorem meetsTaking_of_not_waiting (s : State) (spans : List Span) (h : ∀ u, s.host.up = some u → u.stage ≠ .waiting) :
    s.meetsTaking spans = false := by
  simp only [State.meetsTaking]
  split
  · rename_i u hu
    simp [State.waitsFree, h u hu]
  · rfl

/-! ### What a refresh slot carries (R40) -/

theorem wordFor_cons (w : Nat × Word) (xs : List (Nat × Word)) (o : Nat) :
    wordFor (w :: xs) o = if o = w.1 then some w.2 else wordFor xs o := by
  obtain ⟨a, v⟩ := w
  by_cases h : o = a
  · simp [wordFor, List.lookup, h]
  · simp [wordFor, List.lookup, h, beq_eq_false_iff_ne.2 h]

/-- A joined word has its new value, and every other word the value it had. -/
theorem wordFor_joinWord (w : Nat × Word) (xs : List (Nat × Word)) (o : Nat) :
    wordFor (joinWord w xs) o = if o = w.1 then some w.2 else wordFor xs o := by
  induction xs with
  | nil => exact wordFor_cons w [] o
  | cons x xs ih =>
    simp only [joinWord]
    split
    · exact wordFor_cons w _ o
    · rename_i low
      split
      · rename_i e
        simp only [wordFor_cons, e]
        split <;> rfl
      · rename_i n
        simp only [wordFor_cons, ih]
        by_cases h : o = w.1
        · simp [h, n]
        · simp [h]

/-- A word that is not joined keeps its value. -/
theorem wordFor_joinWords_other (old new : List (Nat × Word)) (o : Nat) (h : o ∉ new.map (·.1)) :
    wordFor (joinWords old new) o = wordFor old o := by
  simp only [joinWords]
  induction new generalizing old with
  | nil => rfl
  | cons w new ih =>
    simp only [List.map_cons, List.mem_cons, not_or] at h
    rw [List.foldl_cons, ih _ h.2, wordFor_joinWord, if_neg h.1]

/-- A joined word has its new value. -/
theorem wordFor_joinWords (old new : List (Nat × Word)) (o : Nat) (v : Word) (once : (new.map (·.1)).Nodup) (h : (o, v) ∈ new) :
    wordFor (joinWords old new) o = some v := by
  induction new generalizing old with
  | nil => cases h
  | cons w new ih =>
    simp only [List.map_cons, List.nodup_cons] at once
    have step : joinWords old (w :: new) = joinWords (joinWord w old) new := rfl
    rw [step]
    rcases List.mem_cons.1 h with rfl | h
    · rw [wordFor_joinWords_other _ _ _ once.1, wordFor_joinWord, if_pos rfl]
    · exact ih _ once.2 h

/-- The queue holds a slot of the refreshed record, with every word handed at its new value. -/
theorem joinQueue_carries (r : Region) (i : Nat) (words : List (Nat × Word)) (q : List OwnItem) (once : (words.map (·.1)).Nodup) :
    ∃ x : RefreshSlot, .refresh x ∈ joinQueue r i words q ∧ x.region = r ∧ x.index = i ∧
      ∀ w ∈ words, wordFor x.words w.1 = some w.2 := by
  induction q with
  | nil => exact ⟨_, List.mem_cons_self, rfl, rfl, fun w h => wordFor_joinWords _ _ _ _ once h⟩
  | cons item rest ih =>
    obtain ⟨x, mem, region, index, carries⟩ := ih
    cases item with
    | refresh y =>
      by_cases same : y.region = r ∧ y.index = i
      · refine ⟨{ y with words := joinWords y.words words }, ?_, same.1, same.2, fun w h => wordFor_joinWords _ _ _ _ once h⟩
        simp only [joinQueue, same, and_self, if_true, List.mem_cons, true_or]
      · exact ⟨x, by simp only [joinQueue, if_neg same, List.mem_cons, mem, or_true], region, index, carries⟩
    | group g => exact ⟨x, by simp only [joinQueue, List.mem_cons, mem, or_true], region, index, carries⟩
    | read rd => exact ⟨x, by simp only [joinQueue, List.mem_cons, mem, or_true], region, index, carries⟩

/-- A refresh leaves what the queue's slots carry for other records, and for other words of its own record. -/
theorem joinQueue_keeps (r : Region) (i : Nat) (words : List (Nat × Word)) (q : List OwnItem) (x : RefreshSlot) (o : Nat)
    (h : .refresh x ∈ q) (other : ¬ (x.region = r ∧ x.index = i) ∨ o ∉ words.map (·.1)) :
    ∃ y : RefreshSlot, .refresh y ∈ joinQueue r i words q ∧ y.region = x.region ∧ y.index = x.index ∧
      wordFor y.words o = wordFor x.words o := by
  induction q with
  | nil => cases h
  | cons item rest ih =>
    rcases List.mem_cons.1 h with e | later
    · subst e
      by_cases same : x.region = r ∧ x.index = i
      · refine ⟨{ x with words := joinWords x.words words }, ?_, rfl, rfl,
          wordFor_joinWords_other _ _ _ (other.resolve_left (fun n => n same))⟩
        simp only [joinQueue, same, and_self, if_true, List.mem_cons, true_or]
      · exact ⟨x, by simp only [joinQueue, if_neg same, List.mem_cons, true_or], rfl, rfl, rfl⟩
    · obtain ⟨y, mem, region, index, same⟩ := ih later
      cases item with
      | refresh z =>
        by_cases first : z.region = r ∧ z.index = i
        · exact ⟨x, by simp only [joinQueue, first, and_self, if_true, List.mem_cons, later, or_true], rfl, rfl, rfl⟩
        · exact ⟨y, by simp only [joinQueue, if_neg first, List.mem_cons, mem, or_true], region, index, same⟩
      | group g => exact ⟨y, by simp only [joinQueue, List.mem_cons, mem, or_true], region, index, same⟩
      | read rd => exact ⟨y, by simp only [joinQueue, List.mem_cons, mem, or_true], region, index, same⟩

/-- A refresh that is admitted changes the queue alone: the slot of its record is joined (R40). -/
theorem refresh_admitted (r : Region) (i : Nat) (words : List (Nat × Word)) (s : State) (some : words ≠ [])
    (allowed : s.allowsWrite r = true) (known : r = .directory → s.dir.dirRead = true) (window : (s.window? r).isSome = true) :
    refresh r i words s = { s with path := { s.path with queue := joinQueue r i words s.path.queue } } := by
  have w : (s.window? r).isNone = false := by cases e : s.window? r <;> simp_all
  have d : ¬ (r = .directory ∧ s.dir.dirRead = false) := fun ⟨e, n⟩ => by simp [known e] at n
  simp [refresh, some, allowed, w, d]

end Sys2Proof.Machine
end

