-- ==== Sys2Proof/Laws/Flags.lean ====
section
/-! SUPPORT. What each operation of Machine/Flags.lean leaves as it was: the fields of State it never writes. -/

namespace Sys2Proof.Machine

@[simp] theorem post_keeps (kind : NoticeKind) (cls : SourceClass) (index : Nat) (detail : Word) (s : State) :
    (post kind cls index detail s).pending = s.pending ∧ (post kind cls index detail s).mem = s.mem ∧
    (post kind cls index detail s).host = s.host ∧ (post kind cls index detail s).path = s.path ∧
    (post kind cls index detail s).dir = s.dir ∧ (post kind cls index detail s).load = s.load ∧
    (post kind cls index detail s).beds = s.beds ∧ (post kind cls index detail s).mixes = s.mixes ∧
    (post kind cls index detail s).freeCount = s.freeCount ∧ (post kind cls index detail s).steam = s.steam ∧
    (post kind cls index detail s).roster = s.roster ∧ (post kind cls index detail s).loops = s.loops ∧
    (post kind cls index detail s).rosterLoaded = s.rosterLoaded ∧ (post kind cls index detail s).stock = s.stock ∧
    (post kind cls index detail s).cranes = s.cranes ∧ (post kind cls index detail s).yardStop = s.yardStop ∧
    (post kind cls index detail s).cranesLoaded = s.cranesLoaded ∧ (post kind cls index detail s).moves = s.moves ∧
    (post kind cls index detail s).clockMs = s.clockMs := by
  simp only [post]
  simp

@[simp] theorem releasePending_keeps (s : State) :
    (releasePending s).pending = s.pending ∧ (releasePending s).mem = s.mem ∧ (releasePending s).host = s.host ∧
    (releasePending s).path = s.path ∧ (releasePending s).dir = s.dir ∧ (releasePending s).load = s.load ∧
    (releasePending s).beds = s.beds ∧ (releasePending s).mixes = s.mixes ∧
    (releasePending s).freeCount = s.freeCount ∧ (releasePending s).steam = s.steam ∧
    (releasePending s).roster = s.roster ∧ (releasePending s).loops = s.loops ∧
    (releasePending s).rosterLoaded = s.rosterLoaded ∧ (releasePending s).stock = s.stock ∧
    (releasePending s).cranes = s.cranes ∧ (releasePending s).yardStop = s.yardStop ∧
    (releasePending s).cranesLoaded = s.cranesLoaded ∧ (releasePending s).moves = s.moves ∧
    (releasePending s).clockMs = s.clockMs := by
  simp only [releasePending]
  simp

@[simp] theorem handNotices_keeps (s : State) :
    (handNotices s).pending = s.pending ∧ (handNotices s).mem = s.mem ∧ (handNotices s).host = s.host ∧
    (handNotices s).dir = s.dir ∧ (handNotices s).load = s.load ∧ (handNotices s).beds = s.beds ∧
    (handNotices s).mixes = s.mixes ∧ (handNotices s).freeCount = s.freeCount ∧ (handNotices s).steam = s.steam ∧
    (handNotices s).roster = s.roster ∧ (handNotices s).loops = s.loops ∧
    (handNotices s).rosterLoaded = s.rosterLoaded ∧ (handNotices s).stock = s.stock ∧
    (handNotices s).cranes = s.cranes ∧ (handNotices s).yardStop = s.yardStop ∧
    (handNotices s).cranesLoaded = s.cranesLoaded ∧ (handNotices s).moves = s.moves ∧
    (handNotices s).clockMs = s.clockMs := by
  simp only [handNotices]
  (repeat' split) <;> simp

@[simp] theorem noticesDone_keeps (count head : Nat) (s : State) :
    (noticesDone count head s).pending = s.pending ∧ (noticesDone count head s).mem = s.mem ∧
    (noticesDone count head s).host = s.host ∧ (noticesDone count head s).path = s.path ∧
    (noticesDone count head s).dir = s.dir ∧ (noticesDone count head s).load = s.load ∧
    (noticesDone count head s).beds = s.beds ∧ (noticesDone count head s).mixes = s.mixes ∧
    (noticesDone count head s).freeCount = s.freeCount ∧ (noticesDone count head s).steam = s.steam ∧
    (noticesDone count head s).roster = s.roster ∧ (noticesDone count head s).loops = s.loops ∧
    (noticesDone count head s).rosterLoaded = s.rosterLoaded ∧ (noticesDone count head s).stock = s.stock ∧
    (noticesDone count head s).cranes = s.cranes ∧ (noticesDone count head s).yardStop = s.yardStop ∧
    (noticesDone count head s).cranesLoaded = s.cranesLoaded ∧ (noticesDone count head s).moves = s.moves ∧
    (noticesDone count head s).clockMs = s.clockMs := by
  simp only [noticesDone]
  simp

@[simp] theorem takeTail_keeps (t : Nat) (s : State) :
    (takeTail t s).pending = s.pending ∧ (takeTail t s).mem = s.mem ∧ (takeTail t s).host = s.host ∧
    (takeTail t s).path = s.path ∧ (takeTail t s).dir = s.dir ∧ (takeTail t s).load = s.load ∧
    (takeTail t s).beds = s.beds ∧ (takeTail t s).mixes = s.mixes ∧ (takeTail t s).freeCount = s.freeCount ∧
    (takeTail t s).steam = s.steam ∧ (takeTail t s).roster = s.roster ∧ (takeTail t s).loops = s.loops ∧
    (takeTail t s).rosterLoaded = s.rosterLoaded ∧ (takeTail t s).stock = s.stock ∧
    (takeTail t s).cranes = s.cranes ∧ (takeTail t s).yardStop = s.yardStop ∧
    (takeTail t s).cranesLoaded = s.cranesLoaded ∧ (takeTail t s).moves = s.moves ∧
    (takeTail t s).clockMs = s.clockMs := by
  simp only [takeTail]
  simp

@[simp] theorem evaluateAttn_keeps (s : State) :
    (evaluateAttn s).pending = s.pending ∧ (evaluateAttn s).mem = s.mem ∧ (evaluateAttn s).host = s.host ∧
    (evaluateAttn s).path = s.path ∧ (evaluateAttn s).load = s.load ∧ (evaluateAttn s).beds = s.beds ∧
    (evaluateAttn s).mixes = s.mixes ∧ (evaluateAttn s).freeCount = s.freeCount ∧ (evaluateAttn s).steam = s.steam ∧
    (evaluateAttn s).roster = s.roster ∧ (evaluateAttn s).loops = s.loops ∧
    (evaluateAttn s).rosterLoaded = s.rosterLoaded ∧ (evaluateAttn s).stock = s.stock ∧
    (evaluateAttn s).cranes = s.cranes ∧ (evaluateAttn s).yardStop = s.yardStop ∧
    (evaluateAttn s).cranesLoaded = s.cranesLoaded ∧ (evaluateAttn s).moves = s.moves ∧
    (evaluateAttn s).clockMs = s.clockMs := by
  simp only [evaluateAttn]
  simp

@[simp] theorem putAlarm_keeps (s : State) (r : AlarmRef) (a : AlarmBlock) :
    (State.putAlarm s r a).pending = s.pending ∧ (State.putAlarm s r a).mem = s.mem ∧
    (State.putAlarm s r a).host = s.host ∧ (State.putAlarm s r a).path = s.path ∧
    (State.putAlarm s r a).dir = s.dir ∧ (State.putAlarm s r a).load = s.load ∧
    (State.putAlarm s r a).mixes = s.mixes ∧ (State.putAlarm s r a).freeCount = s.freeCount ∧
    (State.putAlarm s r a).steam = s.steam ∧ (State.putAlarm s r a).rosterLoaded = s.rosterLoaded ∧
    (State.putAlarm s r a).stock = s.stock ∧ (State.putAlarm s r a).yardStop = s.yardStop ∧
    (State.putAlarm s r a).cranesLoaded = s.cranesLoaded ∧ (State.putAlarm s r a).moves = s.moves ∧
    (State.putAlarm s r a).clockMs = s.clockMs := by
  simp only [State.putAlarm]
  (repeat' split) <;> simp

@[simp] theorem setAlarm_keeps (r : AlarmRef) (a : AlarmBlock) (s : State) :
    (setAlarm r a s).pending = s.pending ∧ (setAlarm r a s).mem = s.mem ∧ (setAlarm r a s).host = s.host ∧
    (setAlarm r a s).dir = s.dir ∧ (setAlarm r a s).load = s.load ∧ (setAlarm r a s).mixes = s.mixes ∧
    (setAlarm r a s).freeCount = s.freeCount ∧ (setAlarm r a s).steam = s.steam ∧
    (setAlarm r a s).rosterLoaded = s.rosterLoaded ∧ (setAlarm r a s).stock = s.stock ∧
    (setAlarm r a s).yardStop = s.yardStop ∧ (setAlarm r a s).cranesLoaded = s.cranesLoaded ∧
    (setAlarm r a s).moves = s.moves ∧ (setAlarm r a s).clockMs = s.clockMs := by
  simp only [setAlarm]
  simp

@[simp] theorem conditionArises_keeps (r : AlarmRef) (bit : Nat) (s : State) :
    (conditionArises r bit s).pending = s.pending ∧ (conditionArises r bit s).mem = s.mem ∧
    (conditionArises r bit s).host = s.host ∧ (conditionArises r bit s).dir = s.dir ∧
    (conditionArises r bit s).load = s.load ∧ (conditionArises r bit s).mixes = s.mixes ∧
    (conditionArises r bit s).freeCount = s.freeCount ∧ (conditionArises r bit s).steam = s.steam ∧
    (conditionArises r bit s).rosterLoaded = s.rosterLoaded ∧ (conditionArises r bit s).stock = s.stock ∧
    (conditionArises r bit s).yardStop = s.yardStop ∧ (conditionArises r bit s).cranesLoaded = s.cranesLoaded ∧
    (conditionArises r bit s).moves = s.moves ∧ (conditionArises r bit s).clockMs = s.clockMs := by
  simp only [conditionArises]
  (repeat' split) <;> simp

@[simp] theorem conditionGone_keeps (r : AlarmRef) (bit : Nat) (s : State) :
    (conditionGone r bit s).pending = s.pending ∧ (conditionGone r bit s).mem = s.mem ∧
    (conditionGone r bit s).host = s.host ∧ (conditionGone r bit s).dir = s.dir ∧
    (conditionGone r bit s).load = s.load ∧ (conditionGone r bit s).mixes = s.mixes ∧
    (conditionGone r bit s).freeCount = s.freeCount ∧ (conditionGone r bit s).steam = s.steam ∧
    (conditionGone r bit s).rosterLoaded = s.rosterLoaded ∧ (conditionGone r bit s).stock = s.stock ∧
    (conditionGone r bit s).yardStop = s.yardStop ∧ (conditionGone r bit s).cranesLoaded = s.cranesLoaded ∧
    (conditionGone r bit s).moves = s.moves ∧ (conditionGone r bit s).clockMs = s.clockMs := by
  simp only [conditionGone]
  (repeat' split) <;> simp

@[simp] theorem reportCondition_keeps (r : AlarmRef) (bit : Nat) (present : Bool) (s : State) :
    (reportCondition r bit present s).pending = s.pending ∧ (reportCondition r bit present s).mem = s.mem ∧
    (reportCondition r bit present s).host = s.host ∧ (reportCondition r bit present s).dir = s.dir ∧
    (reportCondition r bit present s).load = s.load ∧ (reportCondition r bit present s).mixes = s.mixes ∧
    (reportCondition r bit present s).freeCount = s.freeCount ∧ (reportCondition r bit present s).steam = s.steam ∧
    (reportCondition r bit present s).rosterLoaded = s.rosterLoaded ∧
    (reportCondition r bit present s).stock = s.stock ∧ (reportCondition r bit present s).yardStop = s.yardStop ∧
    (reportCondition r bit present s).cranesLoaded = s.cranesLoaded ∧
    (reportCondition r bit present s).moves = s.moves ∧ (reportCondition r bit present s).clockMs = s.clockMs := by
  simp only [reportCondition]
  (repeat' split) <;> simp

@[simp] theorem readEvent_keeps (r : AlarmRef) (given : Word) (s : State) :
    (readEvent r given s).pending = s.pending ∧ (readEvent r given s).mem = s.mem ∧
    (readEvent r given s).host = s.host ∧ (readEvent r given s).dir = s.dir ∧ (readEvent r given s).load = s.load ∧
    (readEvent r given s).mixes = s.mixes ∧ (readEvent r given s).freeCount = s.freeCount ∧
    (readEvent r given s).steam = s.steam ∧ (readEvent r given s).rosterLoaded = s.rosterLoaded ∧
    (readEvent r given s).stock = s.stock ∧ (readEvent r given s).yardStop = s.yardStop ∧
    (readEvent r given s).cranesLoaded = s.cranesLoaded ∧ (readEvent r given s).moves = s.moves ∧
    (readEvent r given s).clockMs = s.clockMs := by
  simp only [readEvent]
  (repeat' split) <;> simp

@[simp] theorem acknowledgeAlarm_keeps (r : AlarmRef) (s : State) :
    (acknowledgeAlarm r s).pending = s.pending ∧ (acknowledgeAlarm r s).mem = s.mem ∧
    (acknowledgeAlarm r s).host = s.host ∧ (acknowledgeAlarm r s).dir = s.dir ∧
    (acknowledgeAlarm r s).load = s.load ∧ (acknowledgeAlarm r s).mixes = s.mixes ∧
    (acknowledgeAlarm r s).freeCount = s.freeCount ∧ (acknowledgeAlarm r s).steam = s.steam ∧
    (acknowledgeAlarm r s).rosterLoaded = s.rosterLoaded ∧ (acknowledgeAlarm r s).stock = s.stock ∧
    (acknowledgeAlarm r s).yardStop = s.yardStop ∧ (acknowledgeAlarm r s).cranesLoaded = s.cranesLoaded ∧
    (acknowledgeAlarm r s).moves = s.moves ∧ (acknowledgeAlarm r s).clockMs = s.clockMs := by
  simp only [acknowledgeAlarm]
  (repeat' split) <;> simp

end Sys2Proof.Machine
end

