-- ==== Sys2Proof/Laws/Probes.lean ====
section
/-! SUPPORT. What each operation of Machine/Probes.lean leaves as it was: the fields of State it never writes. -/

namespace Sys2Proof.Machine

/-! ### An alarm block lies in one table -/

@[simp] theorem putAlarm_bed_keeps (s : State) (b : Fin 24) (a : AlarmBlock) :
    (State.putAlarm s (.bed b) a).roster = s.roster ∧ (State.putAlarm s (.bed b) a).loops = s.loops ∧ (State.putAlarm s (.bed b) a).cranes = s.cranes := by
  simp only [State.putAlarm]
  simp

@[simp] theorem putAlarm_probe_keeps (s : State) (n : Nat) (a : AlarmBlock) :
    (State.putAlarm s (.probe n) a).beds = s.beds ∧ (State.putAlarm s (.probe n) a).loops = s.loops ∧ (State.putAlarm s (.probe n) a).cranes = s.cranes := by
  simp only [State.putAlarm]
  (repeat' split) <;> simp

@[simp] theorem putAlarm_crane_keeps (s : State) (c : Fin 2) (a : AlarmBlock) :
    (State.putAlarm s (.crane c) a).beds = s.beds ∧ (State.putAlarm s (.crane c) a).roster = s.roster ∧ (State.putAlarm s (.crane c) a).loops = s.loops := by
  simp only [State.putAlarm]
  simp

@[simp] theorem putAlarm_loop_keeps (s : State) (l : Fin 4) (a : AlarmBlock) :
    (State.putAlarm s (.loop l) a).beds = s.beds ∧ (State.putAlarm s (.loop l) a).roster = s.roster ∧ (State.putAlarm s (.loop l) a).cranes = s.cranes := by
  simp only [State.putAlarm]
  simp

@[simp] theorem setAlarm_bed_keeps (b : Fin 24) (a : AlarmBlock) (s : State) :
    (setAlarm (.bed b) a s).roster = s.roster ∧ (setAlarm (.bed b) a s).loops = s.loops ∧ (setAlarm (.bed b) a s).cranes = s.cranes := by
  simp only [setAlarm]
  simp

@[simp] theorem setAlarm_probe_keeps (n : Nat) (a : AlarmBlock) (s : State) :
    (setAlarm (.probe n) a s).beds = s.beds ∧ (setAlarm (.probe n) a s).loops = s.loops ∧ (setAlarm (.probe n) a s).cranes = s.cranes := by
  simp only [setAlarm]
  simp

@[simp] theorem setAlarm_crane_keeps (c : Fin 2) (a : AlarmBlock) (s : State) :
    (setAlarm (.crane c) a s).beds = s.beds ∧ (setAlarm (.crane c) a s).roster = s.roster ∧ (setAlarm (.crane c) a s).loops = s.loops := by
  simp only [setAlarm]
  simp

@[simp] theorem setAlarm_loop_keeps (l : Fin 4) (a : AlarmBlock) (s : State) :
    (setAlarm (.loop l) a s).beds = s.beds ∧ (setAlarm (.loop l) a s).roster = s.roster ∧ (setAlarm (.loop l) a s).cranes = s.cranes := by
  simp only [setAlarm]
  simp

@[simp] theorem conditionArises_bed_keeps (b : Fin 24) (bit : Nat) (s : State) :
    (conditionArises (.bed b) bit s).roster = s.roster ∧ (conditionArises (.bed b) bit s).loops = s.loops ∧ (conditionArises (.bed b) bit s).cranes = s.cranes := by
  simp only [conditionArises]
  (repeat' split) <;> simp

@[simp] theorem conditionArises_probe_keeps (n : Nat) (bit : Nat) (s : State) :
    (conditionArises (.probe n) bit s).beds = s.beds ∧ (conditionArises (.probe n) bit s).loops = s.loops ∧ (conditionArises (.probe n) bit s).cranes = s.cranes := by
  simp only [conditionArises]
  (repeat' split) <;> simp

@[simp] theorem conditionArises_crane_keeps (c : Fin 2) (bit : Nat) (s : State) :
    (conditionArises (.crane c) bit s).beds = s.beds ∧ (conditionArises (.crane c) bit s).roster = s.roster ∧ (conditionArises (.crane c) bit s).loops = s.loops := by
  simp only [conditionArises]
  (repeat' split) <;> simp

@[simp] theorem conditionArises_loop_keeps (l : Fin 4) (bit : Nat) (s : State) :
    (conditionArises (.loop l) bit s).beds = s.beds ∧ (conditionArises (.loop l) bit s).roster = s.roster ∧ (conditionArises (.loop l) bit s).cranes = s.cranes := by
  simp only [conditionArises]
  (repeat' split) <;> simp

@[simp] theorem conditionGone_bed_keeps (b : Fin 24) (bit : Nat) (s : State) :
    (conditionGone (.bed b) bit s).roster = s.roster ∧ (conditionGone (.bed b) bit s).loops = s.loops ∧ (conditionGone (.bed b) bit s).cranes = s.cranes := by
  simp only [conditionGone]
  (repeat' split) <;> simp

@[simp] theorem conditionGone_probe_keeps (n : Nat) (bit : Nat) (s : State) :
    (conditionGone (.probe n) bit s).beds = s.beds ∧ (conditionGone (.probe n) bit s).loops = s.loops ∧ (conditionGone (.probe n) bit s).cranes = s.cranes := by
  simp only [conditionGone]
  (repeat' split) <;> simp

@[simp] theorem conditionGone_crane_keeps (c : Fin 2) (bit : Nat) (s : State) :
    (conditionGone (.crane c) bit s).beds = s.beds ∧ (conditionGone (.crane c) bit s).roster = s.roster ∧ (conditionGone (.crane c) bit s).loops = s.loops := by
  simp only [conditionGone]
  (repeat' split) <;> simp

@[simp] theorem conditionGone_loop_keeps (l : Fin 4) (bit : Nat) (s : State) :
    (conditionGone (.loop l) bit s).beds = s.beds ∧ (conditionGone (.loop l) bit s).roster = s.roster ∧ (conditionGone (.loop l) bit s).cranes = s.cranes := by
  simp only [conditionGone]
  (repeat' split) <;> simp

@[simp] theorem reportCondition_bed_keeps (b : Fin 24) (bit : Nat) (present : Bool) (s : State) :
    (reportCondition (.bed b) bit present s).roster = s.roster ∧ (reportCondition (.bed b) bit present s).loops = s.loops ∧ (reportCondition (.bed b) bit present s).cranes = s.cranes := by
  simp only [reportCondition]
  (repeat' split) <;> simp

@[simp] theorem reportCondition_probe_keeps (n : Nat) (bit : Nat) (present : Bool) (s : State) :
    (reportCondition (.probe n) bit present s).beds = s.beds ∧ (reportCondition (.probe n) bit present s).loops = s.loops ∧ (reportCondition (.probe n) bit present s).cranes = s.cranes := by
  simp only [reportCondition]
  (repeat' split) <;> simp

@[simp] theorem reportCondition_crane_keeps (c : Fin 2) (bit : Nat) (present : Bool) (s : State) :
    (reportCondition (.crane c) bit present s).beds = s.beds ∧ (reportCondition (.crane c) bit present s).roster = s.roster ∧ (reportCondition (.crane c) bit present s).loops = s.loops := by
  simp only [reportCondition]
  (repeat' split) <;> simp

@[simp] theorem reportCondition_loop_keeps (l : Fin 4) (bit : Nat) (present : Bool) (s : State) :
    (reportCondition (.loop l) bit present s).beds = s.beds ∧ (reportCondition (.loop l) bit present s).roster = s.roster ∧ (reportCondition (.loop l) bit present s).cranes = s.cranes := by
  simp only [reportCondition]
  (repeat' split) <;> simp

@[simp] theorem readEvent_bed_keeps (b : Fin 24) (given : Word) (s : State) :
    (readEvent (.bed b) given s).roster = s.roster ∧ (readEvent (.bed b) given s).loops = s.loops ∧ (readEvent (.bed b) given s).cranes = s.cranes := by
  simp only [readEvent]
  (repeat' split) <;> simp

@[simp] theorem readEvent_probe_keeps (n : Nat) (given : Word) (s : State) :
    (readEvent (.probe n) given s).beds = s.beds ∧ (readEvent (.probe n) given s).loops = s.loops ∧ (readEvent (.probe n) given s).cranes = s.cranes := by
  simp only [readEvent]
  (repeat' split) <;> simp

@[simp] theorem readEvent_crane_keeps (c : Fin 2) (given : Word) (s : State) :
    (readEvent (.crane c) given s).beds = s.beds ∧ (readEvent (.crane c) given s).roster = s.roster ∧ (readEvent (.crane c) given s).loops = s.loops := by
  simp only [readEvent]
  (repeat' split) <;> simp

@[simp] theorem readEvent_loop_keeps (l : Fin 4) (given : Word) (s : State) :
    (readEvent (.loop l) given s).beds = s.beds ∧ (readEvent (.loop l) given s).roster = s.roster ∧ (readEvent (.loop l) given s).cranes = s.cranes := by
  simp only [readEvent]
  (repeat' split) <;> simp

@[simp] theorem acknowledgeAlarm_bed_keeps (b : Fin 24) (s : State) :
    (acknowledgeAlarm (.bed b) s).roster = s.roster ∧ (acknowledgeAlarm (.bed b) s).loops = s.loops ∧ (acknowledgeAlarm (.bed b) s).cranes = s.cranes := by
  simp only [acknowledgeAlarm]
  (repeat' split) <;> simp

@[simp] theorem acknowledgeAlarm_probe_keeps (n : Nat) (s : State) :
    (acknowledgeAlarm (.probe n) s).beds = s.beds ∧ (acknowledgeAlarm (.probe n) s).loops = s.loops ∧ (acknowledgeAlarm (.probe n) s).cranes = s.cranes := by
  simp only [acknowledgeAlarm]
  (repeat' split) <;> simp

@[simp] theorem acknowledgeAlarm_crane_keeps (c : Fin 2) (s : State) :
    (acknowledgeAlarm (.crane c) s).beds = s.beds ∧ (acknowledgeAlarm (.crane c) s).roster = s.roster ∧ (acknowledgeAlarm (.crane c) s).loops = s.loops := by
  simp only [acknowledgeAlarm]
  (repeat' split) <;> simp

@[simp] theorem acknowledgeAlarm_loop_keeps (l : Fin 4) (s : State) :
    (acknowledgeAlarm (.loop l) s).beds = s.beds ∧ (acknowledgeAlarm (.loop l) s).roster = s.roster ∧ (acknowledgeAlarm (.loop l) s).cranes = s.cranes := by
  simp only [acknowledgeAlarm]
  (repeat' split) <;> simp

/-! ### The operations -/

@[simp] theorem setProbe_keeps (n : Nat) (e' : ProbeEntry) (s : State) :
    (setProbe n e' s).pending = s.pending ∧ (setProbe n e' s).mem = s.mem ∧ (setProbe n e' s).host = s.host ∧
    (setProbe n e' s).dir = s.dir ∧ (setProbe n e' s).load = s.load ∧ (setProbe n e' s).beds = s.beds ∧
    (setProbe n e' s).mixes = s.mixes ∧ (setProbe n e' s).freeCount = s.freeCount ∧
    (setProbe n e' s).steam = s.steam ∧ (setProbe n e' s).loops = s.loops ∧
    (setProbe n e' s).rosterLoaded = s.rosterLoaded ∧ (setProbe n e' s).stock = s.stock ∧
    (setProbe n e' s).cranes = s.cranes ∧ (setProbe n e' s).yardStop = s.yardStop ∧
    (setProbe n e' s).cranesLoaded = s.cranesLoaded ∧ (setProbe n e' s).moves = s.moves ∧
    (setProbe n e' s).clockMs = s.clockMs := by
  simp only [setProbe]
  (repeat' split) <;> simp

@[simp] theorem takeGood_keeps (n : Nat) (e : ProbeEntry) (r : ProbeReading) (s : State) :
    (takeGood n e r s).pending = s.pending ∧ (takeGood n e r s).mem = s.mem ∧ (takeGood n e r s).host = s.host ∧
    (takeGood n e r s).dir = s.dir ∧ (takeGood n e r s).load = s.load ∧ (takeGood n e r s).beds = s.beds ∧
    (takeGood n e r s).mixes = s.mixes ∧ (takeGood n e r s).freeCount = s.freeCount ∧
    (takeGood n e r s).steam = s.steam ∧ (takeGood n e r s).loops = s.loops ∧
    (takeGood n e r s).rosterLoaded = s.rosterLoaded ∧ (takeGood n e r s).stock = s.stock ∧
    (takeGood n e r s).cranes = s.cranes ∧ (takeGood n e r s).yardStop = s.yardStop ∧
    (takeGood n e r s).cranesLoaded = s.cranesLoaded ∧ (takeGood n e r s).moves = s.moves ∧
    (takeGood n e r s).clockMs = s.clockMs := by
  simp only [takeGood]
  (repeat' split) <;> simp

@[simp] theorem takeMiss_keeps (n : Nat) (e : ProbeEntry) (code : PollOutcome) (s : State) :
    (takeMiss n e code s).pending = s.pending ∧ (takeMiss n e code s).mem = s.mem ∧
    (takeMiss n e code s).host = s.host ∧ (takeMiss n e code s).dir = s.dir ∧ (takeMiss n e code s).load = s.load ∧
    (takeMiss n e code s).beds = s.beds ∧ (takeMiss n e code s).mixes = s.mixes ∧
    (takeMiss n e code s).freeCount = s.freeCount ∧ (takeMiss n e code s).steam = s.steam ∧
    (takeMiss n e code s).loops = s.loops ∧ (takeMiss n e code s).rosterLoaded = s.rosterLoaded ∧
    (takeMiss n e code s).stock = s.stock ∧ (takeMiss n e code s).cranes = s.cranes ∧
    (takeMiss n e code s).yardStop = s.yardStop ∧ (takeMiss n e code s).cranesLoaded = s.cranesLoaded ∧
    (takeMiss n e code s).moves = s.moves ∧ (takeMiss n e code s).clockMs = s.clockMs := by
  simp only [takeMiss]
  (repeat' split) <;> simp

@[simp] theorem takeFraming_keeps (n : Nat) (e : ProbeEntry) (s : State) :
    (takeFraming n e s).pending = s.pending ∧ (takeFraming n e s).mem = s.mem ∧ (takeFraming n e s).host = s.host ∧
    (takeFraming n e s).dir = s.dir ∧ (takeFraming n e s).load = s.load ∧ (takeFraming n e s).beds = s.beds ∧
    (takeFraming n e s).mixes = s.mixes ∧ (takeFraming n e s).freeCount = s.freeCount ∧
    (takeFraming n e s).steam = s.steam ∧ (takeFraming n e s).loops = s.loops ∧
    (takeFraming n e s).rosterLoaded = s.rosterLoaded ∧ (takeFraming n e s).stock = s.stock ∧
    (takeFraming n e s).cranes = s.cranes ∧ (takeFraming n e s).yardStop = s.yardStop ∧
    (takeFraming n e s).cranesLoaded = s.cranesLoaded ∧ (takeFraming n e s).moves = s.moves ∧
    (takeFraming n e s).clockMs = s.clockMs := by
  simp only [takeFraming]
  (repeat' split) <;> simp

@[simp] theorem takeOutcome_keeps (n : Nat) (o : Outcome) (s : State) :
    (takeOutcome n o s).pending = s.pending ∧ (takeOutcome n o s).mem = s.mem ∧ (takeOutcome n o s).host = s.host ∧
    (takeOutcome n o s).dir = s.dir ∧ (takeOutcome n o s).load = s.load ∧ (takeOutcome n o s).beds = s.beds ∧
    (takeOutcome n o s).mixes = s.mixes ∧ (takeOutcome n o s).freeCount = s.freeCount ∧
    (takeOutcome n o s).steam = s.steam ∧ (takeOutcome n o s).loops = s.loops ∧
    (takeOutcome n o s).rosterLoaded = s.rosterLoaded ∧ (takeOutcome n o s).stock = s.stock ∧
    (takeOutcome n o s).cranes = s.cranes ∧ (takeOutcome n o s).yardStop = s.yardStop ∧
    (takeOutcome n o s).cranesLoaded = s.cranesLoaded ∧ (takeOutcome n o s).moves = s.moves ∧
    (takeOutcome n o s).clockMs = s.clockMs := by
  simp only [takeOutcome]
  (repeat' split) <;> simp

@[simp] theorem abandonPoll_keeps (n : Nat) (s : State) :
    (abandonPoll n s).pending = s.pending ∧ (abandonPoll n s).mem = s.mem ∧ (abandonPoll n s).host = s.host ∧
    (abandonPoll n s).path = s.path ∧ (abandonPoll n s).dir = s.dir ∧ (abandonPoll n s).load = s.load ∧
    (abandonPoll n s).beds = s.beds ∧ (abandonPoll n s).mixes = s.mixes ∧
    (abandonPoll n s).freeCount = s.freeCount ∧ (abandonPoll n s).steam = s.steam ∧
    (abandonPoll n s).roster = s.roster ∧ (abandonPoll n s).rosterLoaded = s.rosterLoaded ∧
    (abandonPoll n s).stock = s.stock ∧ (abandonPoll n s).cranes = s.cranes ∧
    (abandonPoll n s).yardStop = s.yardStop ∧ (abandonPoll n s).cranesLoaded = s.cranesLoaded ∧
    (abandonPoll n s).moves = s.moves ∧ (abandonPoll n s).clockMs = s.clockMs := by
  simp only [abandonPoll]
  refine ⟨forLoops_pending _ ?_ _, forLoops_mem _ ?_ _, forLoops_host _ ?_ _, forLoops_path _ ?_ _, forLoops_dir _ ?_ _, forLoops_load _ ?_ _, forLoops_beds _ ?_ _, forLoops_mixes _ ?_ _, forLoops_freeCount _ ?_ _, forLoops_steam _ ?_ _, forLoops_roster _ ?_ _, forLoops_rosterLoaded _ ?_ _, forLoops_stock _ ?_ _, forLoops_cranes _ ?_ _, forLoops_yardStop _ ?_ _, forLoops_cranesLoaded _ ?_ _, forLoops_moves _ ?_ _, forLoops_clockMs _ ?_ _⟩ <;>
    (intro b s; (repeat' split) <;> simp)

@[simp] theorem takeEnable_keeps (n : Nat) (on : Bool) (s : State) :
    (takeEnable n on s).pending = s.pending ∧ (takeEnable n on s).mem = s.mem ∧ (takeEnable n on s).host = s.host ∧
    (takeEnable n on s).dir = s.dir ∧ (takeEnable n on s).load = s.load ∧ (takeEnable n on s).beds = s.beds ∧
    (takeEnable n on s).mixes = s.mixes ∧ (takeEnable n on s).freeCount = s.freeCount ∧
    (takeEnable n on s).steam = s.steam ∧ (takeEnable n on s).rosterLoaded = s.rosterLoaded ∧
    (takeEnable n on s).stock = s.stock ∧ (takeEnable n on s).cranes = s.cranes ∧
    (takeEnable n on s).yardStop = s.yardStop ∧ (takeEnable n on s).cranesLoaded = s.cranesLoaded ∧
    (takeEnable n on s).moves = s.moves ∧ (takeEnable n on s).clockMs = s.clockMs := by
  simp only [takeEnable]
  (repeat' split) <;> simp

@[simp] theorem releaseProbe_keeps (n : Nat) (s : State) :
    (releaseProbe n s).pending = s.pending ∧ (releaseProbe n s).mem = s.mem ∧ (releaseProbe n s).host = s.host ∧
    (releaseProbe n s).dir = s.dir ∧ (releaseProbe n s).load = s.load ∧ (releaseProbe n s).beds = s.beds ∧
    (releaseProbe n s).mixes = s.mixes ∧ (releaseProbe n s).freeCount = s.freeCount ∧
    (releaseProbe n s).steam = s.steam ∧ (releaseProbe n s).loops = s.loops ∧
    (releaseProbe n s).rosterLoaded = s.rosterLoaded ∧ (releaseProbe n s).stock = s.stock ∧
    (releaseProbe n s).cranes = s.cranes ∧ (releaseProbe n s).yardStop = s.yardStop ∧
    (releaseProbe n s).cranesLoaded = s.cranesLoaded ∧ (releaseProbe n s).moves = s.moves ∧
    (releaseProbe n s).clockMs = s.clockMs := by
  simp only [releaseProbe]
  (repeat' split) <;> simp

@[simp] theorem beginPoll_keeps (l : Fin 4) (n : Nat) (e : ProbeEntry) (s : State) :
    (beginPoll l n e s).pending = s.pending ∧ (beginPoll l n e s).mem = s.mem ∧ (beginPoll l n e s).host = s.host ∧
    (beginPoll l n e s).path = s.path ∧ (beginPoll l n e s).dir = s.dir ∧ (beginPoll l n e s).load = s.load ∧
    (beginPoll l n e s).beds = s.beds ∧ (beginPoll l n e s).mixes = s.mixes ∧
    (beginPoll l n e s).freeCount = s.freeCount ∧ (beginPoll l n e s).steam = s.steam ∧
    (beginPoll l n e s).roster = s.roster ∧ (beginPoll l n e s).rosterLoaded = s.rosterLoaded ∧
    (beginPoll l n e s).stock = s.stock ∧ (beginPoll l n e s).cranes = s.cranes ∧
    (beginPoll l n e s).yardStop = s.yardStop ∧ (beginPoll l n e s).cranesLoaded = s.cranesLoaded ∧
    (beginPoll l n e s).moves = s.moves ∧ (beginPoll l n e s).clockMs = s.clockMs := by
  simp only [beginPoll]
  simp

@[simp] theorem takeSlot_keeps (l : Fin 4) (s : State) :
    (takeSlot l s).pending = s.pending ∧ (takeSlot l s).mem = s.mem ∧ (takeSlot l s).host = s.host ∧
    (takeSlot l s).dir = s.dir ∧ (takeSlot l s).load = s.load ∧ (takeSlot l s).beds = s.beds ∧
    (takeSlot l s).mixes = s.mixes ∧ (takeSlot l s).freeCount = s.freeCount ∧ (takeSlot l s).steam = s.steam ∧
    (takeSlot l s).rosterLoaded = s.rosterLoaded ∧ (takeSlot l s).stock = s.stock ∧
    (takeSlot l s).cranes = s.cranes ∧ (takeSlot l s).yardStop = s.yardStop ∧
    (takeSlot l s).cranesLoaded = s.cranesLoaded ∧ (takeSlot l s).moves = s.moves ∧
    (takeSlot l s).clockMs = s.clockMs := by
  simp only [takeSlot]
  (repeat' split) <;> simp

@[simp] theorem pollSlot_keeps (l : Fin 4) (s : State) :
    (pollSlot l s).pending = s.pending ∧ (pollSlot l s).mem = s.mem ∧ (pollSlot l s).host = s.host ∧
    (pollSlot l s).dir = s.dir ∧ (pollSlot l s).load = s.load ∧ (pollSlot l s).beds = s.beds ∧
    (pollSlot l s).mixes = s.mixes ∧ (pollSlot l s).freeCount = s.freeCount ∧ (pollSlot l s).steam = s.steam ∧
    (pollSlot l s).rosterLoaded = s.rosterLoaded ∧ (pollSlot l s).stock = s.stock ∧
    (pollSlot l s).cranes = s.cranes ∧ (pollSlot l s).yardStop = s.yardStop ∧
    (pollSlot l s).cranesLoaded = s.cranesLoaded ∧ (pollSlot l s).moves = s.moves ∧
    (pollSlot l s).clockMs = s.clockMs := by
  simp only [pollSlot]
  (repeat' split) <;> simp

@[simp] theorem endPoll_keeps (l : Fin 4) (p : Poll) (o : Outcome) (s : State) :
    (endPoll l p o s).pending = s.pending ∧ (endPoll l p o s).mem = s.mem ∧ (endPoll l p o s).host = s.host ∧
    (endPoll l p o s).dir = s.dir ∧ (endPoll l p o s).load = s.load ∧ (endPoll l p o s).beds = s.beds ∧
    (endPoll l p o s).mixes = s.mixes ∧ (endPoll l p o s).freeCount = s.freeCount ∧
    (endPoll l p o s).steam = s.steam ∧ (endPoll l p o s).rosterLoaded = s.rosterLoaded ∧
    (endPoll l p o s).stock = s.stock ∧ (endPoll l p o s).cranes = s.cranes ∧
    (endPoll l p o s).yardStop = s.yardStop ∧ (endPoll l p o s).cranesLoaded = s.cranesLoaded ∧
    (endPoll l p o s).moves = s.moves ∧ (endPoll l p o s).clockMs = s.clockMs := by
  simp only [endPoll]
  (repeat' split) <;> simp

@[simp] theorem endWaitingPoll_keeps (l : Fin 4) (o : Outcome) (s : State) :
    (endWaitingPoll l o s).pending = s.pending ∧ (endWaitingPoll l o s).mem = s.mem ∧
    (endWaitingPoll l o s).host = s.host ∧ (endWaitingPoll l o s).dir = s.dir ∧
    (endWaitingPoll l o s).load = s.load ∧ (endWaitingPoll l o s).beds = s.beds ∧
    (endWaitingPoll l o s).mixes = s.mixes ∧ (endWaitingPoll l o s).freeCount = s.freeCount ∧
    (endWaitingPoll l o s).steam = s.steam ∧ (endWaitingPoll l o s).rosterLoaded = s.rosterLoaded ∧
    (endWaitingPoll l o s).stock = s.stock ∧ (endWaitingPoll l o s).cranes = s.cranes ∧
    (endWaitingPoll l o s).yardStop = s.yardStop ∧ (endWaitingPoll l o s).cranesLoaded = s.cranesLoaded ∧
    (endWaitingPoll l o s).moves = s.moves ∧ (endWaitingPoll l o s).clockMs = s.clockMs := by
  simp only [endWaitingPoll]
  (repeat' split) <;> simp

@[simp] theorem pollSent_keeps (l : Fin 4) (s : State) :
    (pollSent l s).pending = s.pending ∧ (pollSent l s).mem = s.mem ∧ (pollSent l s).host = s.host ∧
    (pollSent l s).path = s.path ∧ (pollSent l s).dir = s.dir ∧ (pollSent l s).load = s.load ∧
    (pollSent l s).beds = s.beds ∧ (pollSent l s).mixes = s.mixes ∧ (pollSent l s).freeCount = s.freeCount ∧
    (pollSent l s).steam = s.steam ∧ (pollSent l s).roster = s.roster ∧
    (pollSent l s).rosterLoaded = s.rosterLoaded ∧ (pollSent l s).stock = s.stock ∧
    (pollSent l s).cranes = s.cranes ∧ (pollSent l s).yardStop = s.yardStop ∧
    (pollSent l s).cranesLoaded = s.cranesLoaded ∧ (pollSent l s).moves = s.moves ∧
    (pollSent l s).clockMs = s.clockMs := by
  simp only [pollSent]
  (repeat' split) <;> simp

@[simp] theorem windowExpiry_keeps (l : Fin 4) (s : State) :
    (windowExpiry l s).pending = s.pending ∧ (windowExpiry l s).mem = s.mem ∧ (windowExpiry l s).host = s.host ∧
    (windowExpiry l s).dir = s.dir ∧ (windowExpiry l s).load = s.load ∧ (windowExpiry l s).beds = s.beds ∧
    (windowExpiry l s).mixes = s.mixes ∧ (windowExpiry l s).freeCount = s.freeCount ∧
    (windowExpiry l s).steam = s.steam ∧ (windowExpiry l s).rosterLoaded = s.rosterLoaded ∧
    (windowExpiry l s).stock = s.stock ∧ (windowExpiry l s).cranes = s.cranes ∧
    (windowExpiry l s).yardStop = s.yardStop ∧ (windowExpiry l s).cranesLoaded = s.cranesLoaded ∧
    (windowExpiry l s).moves = s.moves ∧ (windowExpiry l s).clockMs = s.clockMs := by
  simp only [windowExpiry]
  (repeat' split) <;> simp

@[simp] theorem replyEnded_keeps (l : Fin 4) (p : Poll) (block : List RxChar) (s : State) :
    (replyEnded l p block s).pending = s.pending ∧ (replyEnded l p block s).mem = s.mem ∧
    (replyEnded l p block s).host = s.host ∧ (replyEnded l p block s).dir = s.dir ∧
    (replyEnded l p block s).load = s.load ∧ (replyEnded l p block s).beds = s.beds ∧
    (replyEnded l p block s).mixes = s.mixes ∧ (replyEnded l p block s).freeCount = s.freeCount ∧
    (replyEnded l p block s).steam = s.steam ∧ (replyEnded l p block s).rosterLoaded = s.rosterLoaded ∧
    (replyEnded l p block s).stock = s.stock ∧ (replyEnded l p block s).cranes = s.cranes ∧
    (replyEnded l p block s).yardStop = s.yardStop ∧ (replyEnded l p block s).cranesLoaded = s.cranesLoaded ∧
    (replyEnded l p block s).moves = s.moves ∧ (replyEnded l p block s).clockMs = s.clockMs := by
  simp only [replyEnded]
  (repeat' split) <;> simp

@[simp] theorem hearLoop_keeps (l : Fin 4) (fuel : Nat) (samples : List Bool) (s : State) :
    (hearLoop l fuel samples s).pending = s.pending ∧ (hearLoop l fuel samples s).mem = s.mem ∧
    (hearLoop l fuel samples s).host = s.host ∧ (hearLoop l fuel samples s).dir = s.dir ∧
    (hearLoop l fuel samples s).load = s.load ∧ (hearLoop l fuel samples s).beds = s.beds ∧
    (hearLoop l fuel samples s).mixes = s.mixes ∧ (hearLoop l fuel samples s).freeCount = s.freeCount ∧
    (hearLoop l fuel samples s).steam = s.steam ∧ (hearLoop l fuel samples s).rosterLoaded = s.rosterLoaded ∧
    (hearLoop l fuel samples s).stock = s.stock ∧ (hearLoop l fuel samples s).cranes = s.cranes ∧
    (hearLoop l fuel samples s).yardStop = s.yardStop ∧ (hearLoop l fuel samples s).cranesLoaded = s.cranesLoaded ∧
    (hearLoop l fuel samples s).moves = s.moves ∧ (hearLoop l fuel samples s).clockMs = s.clockMs := by
  induction fuel generalizing samples s with
  | zero => simp [hearLoop]
  | succ n ih =>
    simp only [hearLoop]
    split
    · simp
    · split
      · have k := ih (loopForm.listen (s.loop l).rx (s.loop l).received samples).rest
        simp only [k]
        (repeat' split) <;> simp
      · simp

@[simp] theorem probeReply_keeps (l : Fin 4) (samples : List Bool) (s : State) :
    (probeReply l samples s).pending = s.pending ∧ (probeReply l samples s).mem = s.mem ∧
    (probeReply l samples s).host = s.host ∧ (probeReply l samples s).dir = s.dir ∧
    (probeReply l samples s).load = s.load ∧ (probeReply l samples s).beds = s.beds ∧
    (probeReply l samples s).mixes = s.mixes ∧ (probeReply l samples s).freeCount = s.freeCount ∧
    (probeReply l samples s).steam = s.steam ∧ (probeReply l samples s).rosterLoaded = s.rosterLoaded ∧
    (probeReply l samples s).stock = s.stock ∧ (probeReply l samples s).cranes = s.cranes ∧
    (probeReply l samples s).yardStop = s.yardStop ∧ (probeReply l samples s).cranesLoaded = s.cranesLoaded ∧
    (probeReply l samples s).moves = s.moves ∧ (probeReply l samples s).clockMs = s.clockMs := by
  simp [probeReply]

@[simp] theorem startLoop_keeps (l : Fin 4) (s : State) :
    (startLoop l s).pending = s.pending ∧ (startLoop l s).mem = s.mem ∧ (startLoop l s).host = s.host ∧
    (startLoop l s).path = s.path ∧ (startLoop l s).dir = s.dir ∧ (startLoop l s).load = s.load ∧
    (startLoop l s).beds = s.beds ∧ (startLoop l s).mixes = s.mixes ∧ (startLoop l s).freeCount = s.freeCount ∧
    (startLoop l s).steam = s.steam ∧ (startLoop l s).roster = s.roster ∧
    (startLoop l s).rosterLoaded = s.rosterLoaded ∧ (startLoop l s).stock = s.stock ∧
    (startLoop l s).cranes = s.cranes ∧ (startLoop l s).yardStop = s.yardStop ∧
    (startLoop l s).cranesLoaded = s.cranesLoaded ∧ (startLoop l s).moves = s.moves ∧
    (startLoop l s).clockMs = s.clockMs := by
  simp only [startLoop]
  (repeat' split) <;> simp

@[simp] theorem startSequenceDone_keeps (l : Fin 4) (s : State) :
    (startSequenceDone l s).pending = s.pending ∧ (startSequenceDone l s).mem = s.mem ∧
    (startSequenceDone l s).host = s.host ∧ (startSequenceDone l s).path = s.path ∧
    (startSequenceDone l s).dir = s.dir ∧ (startSequenceDone l s).load = s.load ∧
    (startSequenceDone l s).beds = s.beds ∧ (startSequenceDone l s).mixes = s.mixes ∧
    (startSequenceDone l s).freeCount = s.freeCount ∧ (startSequenceDone l s).steam = s.steam ∧
    (startSequenceDone l s).roster = s.roster ∧ (startSequenceDone l s).rosterLoaded = s.rosterLoaded ∧
    (startSequenceDone l s).stock = s.stock ∧ (startSequenceDone l s).cranes = s.cranes ∧
    (startSequenceDone l s).yardStop = s.yardStop ∧ (startSequenceDone l s).cranesLoaded = s.cranesLoaded ∧
    (startSequenceDone l s).moves = s.moves ∧ (startSequenceDone l s).clockMs = s.clockMs := by
  simp only [startSequenceDone]
  (repeat' split) <;> simp

@[simp] theorem becomeStuck_keeps (l : Fin 4) (s : State) :
    (becomeStuck l s).pending = s.pending ∧ (becomeStuck l s).mem = s.mem ∧ (becomeStuck l s).host = s.host ∧
    (becomeStuck l s).dir = s.dir ∧ (becomeStuck l s).load = s.load ∧ (becomeStuck l s).beds = s.beds ∧
    (becomeStuck l s).mixes = s.mixes ∧ (becomeStuck l s).freeCount = s.freeCount ∧
    (becomeStuck l s).steam = s.steam ∧ (becomeStuck l s).rosterLoaded = s.rosterLoaded ∧
    (becomeStuck l s).stock = s.stock ∧ (becomeStuck l s).cranes = s.cranes ∧
    (becomeStuck l s).yardStop = s.yardStop ∧ (becomeStuck l s).cranesLoaded = s.cranesLoaded ∧
    (becomeStuck l s).moves = s.moves ∧ (becomeStuck l s).clockMs = s.clockMs := by
  simp only [becomeStuck]
  (repeat' split) <;> simp

@[simp] theorem recoverLoop_keeps (l : Fin 4) (s : State) :
    (recoverLoop l s).pending = s.pending ∧ (recoverLoop l s).mem = s.mem ∧ (recoverLoop l s).host = s.host ∧
    (recoverLoop l s).dir = s.dir ∧ (recoverLoop l s).load = s.load ∧ (recoverLoop l s).beds = s.beds ∧
    (recoverLoop l s).mixes = s.mixes ∧ (recoverLoop l s).freeCount = s.freeCount ∧
    (recoverLoop l s).steam = s.steam ∧ (recoverLoop l s).roster = s.roster ∧
    (recoverLoop l s).rosterLoaded = s.rosterLoaded ∧ (recoverLoop l s).stock = s.stock ∧
    (recoverLoop l s).cranes = s.cranes ∧ (recoverLoop l s).yardStop = s.yardStop ∧
    (recoverLoop l s).cranesLoaded = s.cranesLoaded ∧ (recoverLoop l s).moves = s.moves ∧
    (recoverLoop l s).clockMs = s.clockMs := by
  simp only [recoverLoop]
  (repeat' split) <;> simp

@[simp] theorem retryBreak_keeps (l : Fin 4) (s : State) :
    (retryBreak l s).pending = s.pending ∧ (retryBreak l s).mem = s.mem ∧ (retryBreak l s).host = s.host ∧
    (retryBreak l s).path = s.path ∧ (retryBreak l s).dir = s.dir ∧ (retryBreak l s).load = s.load ∧
    (retryBreak l s).beds = s.beds ∧ (retryBreak l s).mixes = s.mixes ∧ (retryBreak l s).freeCount = s.freeCount ∧
    (retryBreak l s).steam = s.steam ∧ (retryBreak l s).roster = s.roster ∧
    (retryBreak l s).rosterLoaded = s.rosterLoaded ∧ (retryBreak l s).stock = s.stock ∧
    (retryBreak l s).cranes = s.cranes ∧ (retryBreak l s).yardStop = s.yardStop ∧
    (retryBreak l s).cranesLoaded = s.cranesLoaded ∧ (retryBreak l s).moves = s.moves ∧
    (retryBreak l s).clockMs = s.clockMs := by
  simp only [retryBreak]
  (repeat' split) <;> simp

end Sys2Proof.Machine
end

