-- ==== Sys2Proof/Laws/Steam.lean ====
section
/-! SUPPORT. What each operation of Machine/Steam.lean leaves as it was: the fields of State it never writes. -/

namespace Sys2Proof.Machine

@[simp] theorem postHeat_keeps (kind : NoticeKind) (detail : Word) (s : State) :
    (postHeat kind detail s).pending = s.pending ∧ (postHeat kind detail s).mem = s.mem ∧
    (postHeat kind detail s).host = s.host ∧ (postHeat kind detail s).path = s.path ∧
    (postHeat kind detail s).dir = s.dir ∧ (postHeat kind detail s).load = s.load ∧
    (postHeat kind detail s).beds = s.beds ∧ (postHeat kind detail s).mixes = s.mixes ∧
    (postHeat kind detail s).freeCount = s.freeCount ∧ (postHeat kind detail s).steam = s.steam ∧
    (postHeat kind detail s).roster = s.roster ∧ (postHeat kind detail s).loops = s.loops ∧
    (postHeat kind detail s).rosterLoaded = s.rosterLoaded ∧ (postHeat kind detail s).stock = s.stock ∧
    (postHeat kind detail s).cranes = s.cranes ∧ (postHeat kind detail s).yardStop = s.yardStop ∧
    (postHeat kind detail s).cranesLoaded = s.cranesLoaded ∧ (postHeat kind detail s).moves = s.moves ∧
    (postHeat kind detail s).clockMs = s.clockMs := by
  simp only [postHeat]
  simp

@[simp] theorem closeValve_keeps (b : Fin 24) (s : State) :
    (closeValve b s).pending = s.pending ∧ (closeValve b s).mem = s.mem ∧ (closeValve b s).host = s.host ∧
    (closeValve b s).path = s.path ∧ (closeValve b s).dir = s.dir ∧ (closeValve b s).load = s.load ∧
    (closeValve b s).mixes = s.mixes ∧ (closeValve b s).freeCount = s.freeCount ∧ (closeValve b s).steam = s.steam ∧
    (closeValve b s).roster = s.roster ∧ (closeValve b s).loops = s.loops ∧
    (closeValve b s).rosterLoaded = s.rosterLoaded ∧ (closeValve b s).stock = s.stock ∧
    (closeValve b s).cranes = s.cranes ∧ (closeValve b s).yardStop = s.yardStop ∧
    (closeValve b s).cranesLoaded = s.cranesLoaded ∧ (closeValve b s).moves = s.moves ∧
    (closeValve b s).clockMs = s.clockMs := by
  simp only [closeValve]
  simp

@[simp] theorem closeShut_keeps (s : State) :
    (closeShut s).pending = s.pending ∧ (closeShut s).mem = s.mem ∧ (closeShut s).host = s.host ∧
    (closeShut s).path = s.path ∧ (closeShut s).dir = s.dir ∧ (closeShut s).load = s.load ∧
    (closeShut s).mixes = s.mixes ∧ (closeShut s).freeCount = s.freeCount ∧ (closeShut s).steam = s.steam ∧
    (closeShut s).roster = s.roster ∧ (closeShut s).loops = s.loops ∧ (closeShut s).rosterLoaded = s.rosterLoaded ∧
    (closeShut s).stock = s.stock ∧ (closeShut s).cranes = s.cranes ∧ (closeShut s).yardStop = s.yardStop ∧
    (closeShut s).cranesLoaded = s.cranesLoaded ∧ (closeShut s).moves = s.moves ∧ (closeShut s).clockMs = s.clockMs := by
  simp only [closeShut]
  refine ⟨forBeds_pending _ ?_ _, forBeds_mem _ ?_ _, forBeds_host _ ?_ _, forBeds_path _ ?_ _, forBeds_dir _ ?_ _, forBeds_load _ ?_ _, forBeds_mixes _ ?_ _, forBeds_freeCount _ ?_ _, forBeds_steam _ ?_ _, forBeds_roster _ ?_ _, forBeds_loops _ ?_ _, forBeds_rosterLoaded _ ?_ _, forBeds_stock _ ?_ _, forBeds_cranes _ ?_ _, forBeds_yardStop _ ?_ _, forBeds_cranesLoaded _ ?_ _, forBeds_moves _ ?_ _, forBeds_clockMs _ ?_ _⟩ <;>
    (intro b s; (repeat' split) <;> simp)

@[simp] theorem driveValves_keeps (s : State) :
    (driveValves s).pending = s.pending ∧ (driveValves s).mem = s.mem ∧ (driveValves s).host = s.host ∧
    (driveValves s).path = s.path ∧ (driveValves s).dir = s.dir ∧ (driveValves s).load = s.load ∧
    (driveValves s).mixes = s.mixes ∧ (driveValves s).freeCount = s.freeCount ∧ (driveValves s).steam = s.steam ∧
    (driveValves s).roster = s.roster ∧ (driveValves s).loops = s.loops ∧
    (driveValves s).rosterLoaded = s.rosterLoaded ∧ (driveValves s).stock = s.stock ∧
    (driveValves s).cranes = s.cranes ∧ (driveValves s).yardStop = s.yardStop ∧
    (driveValves s).cranesLoaded = s.cranesLoaded ∧ (driveValves s).moves = s.moves ∧
    (driveValves s).clockMs = s.clockMs := by
  simp only [driveValves]
  refine ⟨forBeds_pending _ ?_ _, forBeds_mem _ ?_ _, forBeds_host _ ?_ _, forBeds_path _ ?_ _, forBeds_dir _ ?_ _, forBeds_load _ ?_ _, forBeds_mixes _ ?_ _, forBeds_freeCount _ ?_ _, forBeds_steam _ ?_ _, forBeds_roster _ ?_ _, forBeds_loops _ ?_ _, forBeds_rosterLoaded _ ?_ _, forBeds_stock _ ?_ _, forBeds_cranes _ ?_ _, forBeds_yardStop _ ?_ _, forBeds_cranesLoaded _ ?_ _, forBeds_moves _ ?_ _, forBeds_clockMs _ ?_ _⟩ <;>
    (intro b s; simp)

@[simp] theorem valveStep_keeps (s : State) :
    (valveStep s).pending = s.pending ∧ (valveStep s).mem = s.mem ∧ (valveStep s).host = s.host ∧
    (valveStep s).path = s.path ∧ (valveStep s).dir = s.dir ∧ (valveStep s).load = s.load ∧
    (valveStep s).mixes = s.mixes ∧ (valveStep s).freeCount = s.freeCount ∧ (valveStep s).roster = s.roster ∧
    (valveStep s).loops = s.loops ∧ (valveStep s).rosterLoaded = s.rosterLoaded ∧ (valveStep s).stock = s.stock ∧
    (valveStep s).cranes = s.cranes ∧ (valveStep s).yardStop = s.yardStop ∧
    (valveStep s).cranesLoaded = s.cranesLoaded ∧ (valveStep s).moves = s.moves ∧ (valveStep s).clockMs = s.clockMs := by
  simp only [valveStep]
  simp

@[simp] theorem putGate_keeps (words : List (Nat × Word)) (u : SteamUnit) (s : State) :
    (putGate words u s).pending = s.pending ∧ (putGate words u s).mem = s.mem ∧ (putGate words u s).host = s.host ∧
    (putGate words u s).dir = s.dir ∧ (putGate words u s).load = s.load ∧ (putGate words u s).beds = s.beds ∧
    (putGate words u s).mixes = s.mixes ∧ (putGate words u s).freeCount = s.freeCount ∧
    (putGate words u s).roster = s.roster ∧ (putGate words u s).loops = s.loops ∧
    (putGate words u s).rosterLoaded = s.rosterLoaded ∧ (putGate words u s).stock = s.stock ∧
    (putGate words u s).cranes = s.cranes ∧ (putGate words u s).yardStop = s.yardStop ∧
    (putGate words u s).cranesLoaded = s.cranesLoaded ∧ (putGate words u s).moves = s.moves ∧
    (putGate words u s).clockMs = s.clockMs := by
  simp only [putGate]
  simp

@[simp] theorem setGate_keeps (u : SteamUnit) (s : State) :
    (setGate u s).pending = s.pending ∧ (setGate u s).mem = s.mem ∧ (setGate u s).host = s.host ∧
    (setGate u s).dir = s.dir ∧ (setGate u s).load = s.load ∧ (setGate u s).beds = s.beds ∧
    (setGate u s).mixes = s.mixes ∧ (setGate u s).freeCount = s.freeCount ∧ (setGate u s).roster = s.roster ∧
    (setGate u s).loops = s.loops ∧ (setGate u s).rosterLoaded = s.rosterLoaded ∧ (setGate u s).stock = s.stock ∧
    (setGate u s).cranes = s.cranes ∧ (setGate u s).yardStop = s.yardStop ∧
    (setGate u s).cranesLoaded = s.cranesLoaded ∧ (setGate u s).moves = s.moves ∧ (setGate u s).clockMs = s.clockMs := by
  simp only [setGate]
  simp

@[simp] theorem beginSwapRead_keeps (s : State) :
    (beginSwapRead s).pending = s.pending ∧ (beginSwapRead s).mem = s.mem ∧ (beginSwapRead s).host = s.host ∧
    (beginSwapRead s).dir = s.dir ∧ (beginSwapRead s).load = s.load ∧ (beginSwapRead s).beds = s.beds ∧
    (beginSwapRead s).mixes = s.mixes ∧ (beginSwapRead s).freeCount = s.freeCount ∧
    (beginSwapRead s).roster = s.roster ∧ (beginSwapRead s).loops = s.loops ∧
    (beginSwapRead s).rosterLoaded = s.rosterLoaded ∧ (beginSwapRead s).stock = s.stock ∧
    (beginSwapRead s).cranes = s.cranes ∧ (beginSwapRead s).yardStop = s.yardStop ∧
    (beginSwapRead s).cranesLoaded = s.cranesLoaded ∧ (beginSwapRead s).moves = s.moves ∧
    (beginSwapRead s).clockMs = s.clockMs := by
  simp only [beginSwapRead]
  simp

@[simp] theorem gateExpiry_keeps (s : State) :
    (gateExpiry s).pending = s.pending ∧ (gateExpiry s).mem = s.mem ∧ (gateExpiry s).host = s.host ∧
    (gateExpiry s).dir = s.dir ∧ (gateExpiry s).load = s.load ∧ (gateExpiry s).mixes = s.mixes ∧
    (gateExpiry s).freeCount = s.freeCount ∧ (gateExpiry s).roster = s.roster ∧ (gateExpiry s).loops = s.loops ∧
    (gateExpiry s).rosterLoaded = s.rosterLoaded ∧ (gateExpiry s).stock = s.stock ∧
    (gateExpiry s).cranes = s.cranes ∧ (gateExpiry s).yardStop = s.yardStop ∧
    (gateExpiry s).cranesLoaded = s.cranesLoaded ∧ (gateExpiry s).moves = s.moves ∧
    (gateExpiry s).clockMs = s.clockMs := by
  simp only [gateExpiry]
  (repeat' split) <;> simp

@[simp] theorem takeSwap_keeps (s : State) :
    (takeSwap s).pending = s.pending ∧ (takeSwap s).mem = s.mem ∧ (takeSwap s).host = s.host ∧
    (takeSwap s).dir = s.dir ∧ (takeSwap s).load = s.load ∧ (takeSwap s).beds = s.beds ∧
    (takeSwap s).mixes = s.mixes ∧ (takeSwap s).freeCount = s.freeCount ∧ (takeSwap s).roster = s.roster ∧
    (takeSwap s).loops = s.loops ∧ (takeSwap s).rosterLoaded = s.rosterLoaded ∧ (takeSwap s).stock = s.stock ∧
    (takeSwap s).cranes = s.cranes ∧ (takeSwap s).yardStop = s.yardStop ∧
    (takeSwap s).cranesLoaded = s.cranesLoaded ∧ (takeSwap s).moves = s.moves ∧ (takeSwap s).clockMs = s.clockMs := by
  simp only [takeSwap]
  simp

@[simp] theorem takeCancel_keeps (s : State) :
    (takeCancel s).pending = s.pending ∧ (takeCancel s).mem = s.mem ∧ (takeCancel s).host = s.host ∧
    (takeCancel s).dir = s.dir ∧ (takeCancel s).load = s.load ∧ (takeCancel s).beds = s.beds ∧
    (takeCancel s).mixes = s.mixes ∧ (takeCancel s).freeCount = s.freeCount ∧ (takeCancel s).roster = s.roster ∧
    (takeCancel s).loops = s.loops ∧ (takeCancel s).rosterLoaded = s.rosterLoaded ∧ (takeCancel s).stock = s.stock ∧
    (takeCancel s).cranes = s.cranes ∧ (takeCancel s).yardStop = s.yardStop ∧
    (takeCancel s).cranesLoaded = s.cranesLoaded ∧ (takeCancel s).moves = s.moves ∧
    (takeCancel s).clockMs = s.clockMs := by
  simp only [takeCancel]
  (repeat' split) <;> simp

@[simp] theorem heatFailed_keeps (s : State) :
    (heatFailed s).pending = s.pending ∧ (heatFailed s).mem = s.mem ∧ (heatFailed s).host = s.host ∧
    (heatFailed s).path = s.path ∧ (heatFailed s).dir = s.dir ∧ (heatFailed s).load = s.load ∧
    (heatFailed s).beds = s.beds ∧ (heatFailed s).mixes = s.mixes ∧ (heatFailed s).freeCount = s.freeCount ∧
    (heatFailed s).steam = s.steam ∧ (heatFailed s).roster = s.roster ∧ (heatFailed s).loops = s.loops ∧
    (heatFailed s).rosterLoaded = s.rosterLoaded ∧ (heatFailed s).stock = s.stock ∧
    (heatFailed s).cranes = s.cranes ∧ (heatFailed s).yardStop = s.yardStop ∧
    (heatFailed s).cranesLoaded = s.cranesLoaded ∧ (heatFailed s).moves = s.moves ∧
    (heatFailed s).clockMs = s.clockMs := by
  simp only [heatFailed]
  simp

@[simp] theorem swapExamined_keeps (data : Option (List Word)) (s : State) :
    (swapExamined data s).pending = s.pending ∧ (swapExamined data s).mem = s.mem ∧
    (swapExamined data s).host = s.host ∧ (swapExamined data s).dir = s.dir ∧ (swapExamined data s).load = s.load ∧
    (swapExamined data s).mixes = s.mixes ∧ (swapExamined data s).freeCount = s.freeCount ∧
    (swapExamined data s).roster = s.roster ∧ (swapExamined data s).loops = s.loops ∧
    (swapExamined data s).rosterLoaded = s.rosterLoaded ∧ (swapExamined data s).stock = s.stock ∧
    (swapExamined data s).cranes = s.cranes ∧ (swapExamined data s).yardStop = s.yardStop ∧
    (swapExamined data s).cranesLoaded = s.cranesLoaded ∧ (swapExamined data s).moves = s.moves ∧
    (swapExamined data s).clockMs = s.clockMs := by
  simp only [swapExamined]
  (repeat' split) <;> simp

@[simp] theorem starve_keeps (b : Fin 24) (grant : Nat) (s : State) :
    (starve b grant s).pending = s.pending ∧ (starve b grant s).mem = s.mem ∧ (starve b grant s).host = s.host ∧
    (starve b grant s).path = s.path ∧ (starve b grant s).dir = s.dir ∧ (starve b grant s).load = s.load ∧
    (starve b grant s).mixes = s.mixes ∧ (starve b grant s).freeCount = s.freeCount ∧
    (starve b grant s).steam = s.steam ∧ (starve b grant s).roster = s.roster ∧ (starve b grant s).loops = s.loops ∧
    (starve b grant s).rosterLoaded = s.rosterLoaded ∧ (starve b grant s).stock = s.stock ∧
    (starve b grant s).cranes = s.cranes ∧ (starve b grant s).yardStop = s.yardStop ∧
    (starve b grant s).cranesLoaded = s.cranesLoaded ∧ (starve b grant s).moves = s.moves ∧
    (starve b grant s).clockMs = s.clockMs := by
  simp only [starve]
  (repeat' split) <;> simp

@[simp] theorem giveGrant_keeps (b : Fin 24) (grant : Nat) (s : State) :
    (giveGrant b grant s).pending = s.pending ∧ (giveGrant b grant s).mem = s.mem ∧
    (giveGrant b grant s).host = s.host ∧ (giveGrant b grant s).dir = s.dir ∧ (giveGrant b grant s).load = s.load ∧
    (giveGrant b grant s).mixes = s.mixes ∧ (giveGrant b grant s).freeCount = s.freeCount ∧
    (giveGrant b grant s).steam = s.steam ∧ (giveGrant b grant s).roster = s.roster ∧
    (giveGrant b grant s).loops = s.loops ∧ (giveGrant b grant s).rosterLoaded = s.rosterLoaded ∧
    (giveGrant b grant s).stock = s.stock ∧ (giveGrant b grant s).cranes = s.cranes ∧
    (giveGrant b grant s).yardStop = s.yardStop ∧ (giveGrant b grant s).cranesLoaded = s.cranesLoaded ∧
    (giveGrant b grant s).moves = s.moves ∧ (giveGrant b grant s).clockMs = s.clockMs := by
  simp only [giveGrant]
  (repeat' split) <;> simp

@[simp] theorem admissionRound_keeps (lowFire : Bool) (s : State) :
    (admissionRound lowFire s).pending = s.pending ∧ (admissionRound lowFire s).mem = s.mem ∧
    (admissionRound lowFire s).host = s.host ∧ (admissionRound lowFire s).dir = s.dir ∧
    (admissionRound lowFire s).load = s.load ∧ (admissionRound lowFire s).mixes = s.mixes ∧
    (admissionRound lowFire s).freeCount = s.freeCount ∧ (admissionRound lowFire s).roster = s.roster ∧
    (admissionRound lowFire s).loops = s.loops ∧ (admissionRound lowFire s).rosterLoaded = s.rosterLoaded ∧
    (admissionRound lowFire s).stock = s.stock ∧ (admissionRound lowFire s).cranes = s.cranes ∧
    (admissionRound lowFire s).yardStop = s.yardStop ∧ (admissionRound lowFire s).cranesLoaded = s.cranesLoaded ∧
    (admissionRound lowFire s).moves = s.moves ∧ (admissionRound lowFire s).clockMs = s.clockMs := by
  simp only [admissionRound]
  (repeat' split) <;> simp

@[simp] theorem setRunning_keeps (b : Fin 24) (running : Bool) (s : State) :
    (setRunning b running s).pending = s.pending ∧ (setRunning b running s).mem = s.mem ∧
    (setRunning b running s).host = s.host ∧ (setRunning b running s).path = s.path ∧
    (setRunning b running s).dir = s.dir ∧ (setRunning b running s).load = s.load ∧
    (setRunning b running s).mixes = s.mixes ∧ (setRunning b running s).freeCount = s.freeCount ∧
    (setRunning b running s).steam = s.steam ∧ (setRunning b running s).roster = s.roster ∧
    (setRunning b running s).loops = s.loops ∧ (setRunning b running s).rosterLoaded = s.rosterLoaded ∧
    (setRunning b running s).stock = s.stock ∧ (setRunning b running s).cranes = s.cranes ∧
    (setRunning b running s).yardStop = s.yardStop ∧ (setRunning b running s).cranesLoaded = s.cranesLoaded ∧
    (setRunning b running s).moves = s.moves ∧ (setRunning b running s).clockMs = s.clockMs := by
  simp only [setRunning]
  (repeat' split) <;> simp

@[simp] theorem setDemand_keeps (b : Fin 24) (demand : Nat) (s : State) :
    (setDemand b demand s).pending = s.pending ∧ (setDemand b demand s).mem = s.mem ∧
    (setDemand b demand s).host = s.host ∧ (setDemand b demand s).path = s.path ∧
    (setDemand b demand s).dir = s.dir ∧ (setDemand b demand s).load = s.load ∧
    (setDemand b demand s).mixes = s.mixes ∧ (setDemand b demand s).freeCount = s.freeCount ∧
    (setDemand b demand s).steam = s.steam ∧ (setDemand b demand s).roster = s.roster ∧
    (setDemand b demand s).loops = s.loops ∧ (setDemand b demand s).rosterLoaded = s.rosterLoaded ∧
    (setDemand b demand s).stock = s.stock ∧ (setDemand b demand s).cranes = s.cranes ∧
    (setDemand b demand s).yardStop = s.yardStop ∧ (setDemand b demand s).cranesLoaded = s.cranesLoaded ∧
    (setDemand b demand s).moves = s.moves ∧ (setDemand b demand s).clockMs = s.clockMs := by
  simp only [setDemand]
  simp

@[simp] theorem cureEnded_keeps (b : Fin 24) (s : State) :
    (cureEnded b s).pending = s.pending ∧ (cureEnded b s).mem = s.mem ∧ (cureEnded b s).host = s.host ∧
    (cureEnded b s).path = s.path ∧ (cureEnded b s).dir = s.dir ∧ (cureEnded b s).load = s.load ∧
    (cureEnded b s).mixes = s.mixes ∧ (cureEnded b s).freeCount = s.freeCount ∧ (cureEnded b s).steam = s.steam ∧
    (cureEnded b s).roster = s.roster ∧ (cureEnded b s).loops = s.loops ∧
    (cureEnded b s).rosterLoaded = s.rosterLoaded ∧ (cureEnded b s).stock = s.stock ∧
    (cureEnded b s).cranes = s.cranes ∧ (cureEnded b s).yardStop = s.yardStop ∧
    (cureEnded b s).cranesLoaded = s.cranesLoaded ∧ (cureEnded b s).moves = s.moves ∧
    (cureEnded b s).clockMs = s.clockMs := by
  simp only [cureEnded]
  simp

@[simp] theorem steamSafe_keeps (s : State) :
    (steamSafe s).pending = s.pending ∧ (steamSafe s).mem = s.mem ∧ (steamSafe s).host = s.host ∧
    (steamSafe s).dir = s.dir ∧ (steamSafe s).load = s.load ∧ (steamSafe s).mixes = s.mixes ∧
    (steamSafe s).freeCount = s.freeCount ∧ (steamSafe s).roster = s.roster ∧ (steamSafe s).loops = s.loops ∧
    (steamSafe s).rosterLoaded = s.rosterLoaded ∧ (steamSafe s).stock = s.stock ∧ (steamSafe s).cranes = s.cranes ∧
    (steamSafe s).yardStop = s.yardStop ∧ (steamSafe s).cranesLoaded = s.cranesLoaded ∧
    (steamSafe s).moves = s.moves ∧ (steamSafe s).clockMs = s.clockMs := by
  simp only [steamSafe]
  simp

end Sys2Proof.Machine
end

