-- ==== Sys2Proof/Laws/Curing.lean ====
section
/-! SUPPORT. What each operation of Machine/Curing.lean leaves as it was: the fields of State it never writes. -/

namespace Sys2Proof.Machine

@[simp] theorem postBed_keeps (kind : NoticeKind) (b : Fin 24) (detail : Word) (s : State) :
    (postBed kind b detail s).pending = s.pending ∧ (postBed kind b detail s).mem = s.mem ∧
    (postBed kind b detail s).host = s.host ∧ (postBed kind b detail s).path = s.path ∧
    (postBed kind b detail s).dir = s.dir ∧ (postBed kind b detail s).load = s.load ∧
    (postBed kind b detail s).beds = s.beds ∧ (postBed kind b detail s).mixes = s.mixes ∧
    (postBed kind b detail s).freeCount = s.freeCount ∧ (postBed kind b detail s).steam = s.steam ∧
    (postBed kind b detail s).roster = s.roster ∧ (postBed kind b detail s).loops = s.loops ∧
    (postBed kind b detail s).rosterLoaded = s.rosterLoaded ∧ (postBed kind b detail s).stock = s.stock ∧
    (postBed kind b detail s).cranes = s.cranes ∧ (postBed kind b detail s).yardStop = s.yardStop ∧
    (postBed kind b detail s).cranesLoaded = s.cranesLoaded ∧ (postBed kind b detail s).moves = s.moves ∧
    (postBed kind b detail s).clockMs = s.clockMs := by
  simp only [postBed]
  simp

@[simp] theorem deriveSub_keeps (b : Fin 24) (c : CureContext) (s : State) :
    (deriveSub b c s).pending = s.pending ∧ (deriveSub b c s).mem = s.mem ∧ (deriveSub b c s).host = s.host ∧
    (deriveSub b c s).path = s.path ∧ (deriveSub b c s).dir = s.dir ∧ (deriveSub b c s).load = s.load ∧
    (deriveSub b c s).mixes = s.mixes ∧ (deriveSub b c s).freeCount = s.freeCount ∧
    (deriveSub b c s).steam = s.steam ∧ (deriveSub b c s).roster = s.roster ∧ (deriveSub b c s).loops = s.loops ∧
    (deriveSub b c s).rosterLoaded = s.rosterLoaded ∧ (deriveSub b c s).stock = s.stock ∧
    (deriveSub b c s).cranes = s.cranes ∧ (deriveSub b c s).yardStop = s.yardStop ∧
    (deriveSub b c s).cranesLoaded = s.cranesLoaded ∧ (deriveSub b c s).moves = s.moves ∧
    (deriveSub b c s).clockMs = s.clockMs := by
  simp only [deriveSub]
  (repeat' split) <;> simp

@[simp] theorem cureHold_keeps (b : Fin 24) (held : Bool) (s : State) :
    (cureHold b held s).pending = s.pending ∧ (cureHold b held s).mem = s.mem ∧ (cureHold b held s).host = s.host ∧
    (cureHold b held s).path = s.path ∧ (cureHold b held s).dir = s.dir ∧ (cureHold b held s).load = s.load ∧
    (cureHold b held s).mixes = s.mixes ∧ (cureHold b held s).freeCount = s.freeCount ∧
    (cureHold b held s).steam = s.steam ∧ (cureHold b held s).roster = s.roster ∧
    (cureHold b held s).loops = s.loops ∧ (cureHold b held s).rosterLoaded = s.rosterLoaded ∧
    (cureHold b held s).stock = s.stock ∧ (cureHold b held s).cranes = s.cranes ∧
    (cureHold b held s).yardStop = s.yardStop ∧ (cureHold b held s).cranesLoaded = s.cranesLoaded ∧
    (cureHold b held s).moves = s.moves ∧ (cureHold b held s).clockMs = s.clockMs := by
  simp only [cureHold]
  (repeat' split) <;> simp

@[simp] theorem senseBed_keeps (b : Fin 24) (s : State) :
    (senseBed b s).pending = s.pending ∧ (senseBed b s).mem = s.mem ∧ (senseBed b s).host = s.host ∧
    (senseBed b s).path = s.path ∧ (senseBed b s).dir = s.dir ∧ (senseBed b s).load = s.load ∧
    (senseBed b s).mixes = s.mixes ∧ (senseBed b s).freeCount = s.freeCount ∧ (senseBed b s).steam = s.steam ∧
    (senseBed b s).roster = s.roster ∧ (senseBed b s).loops = s.loops ∧
    (senseBed b s).rosterLoaded = s.rosterLoaded ∧ (senseBed b s).stock = s.stock ∧
    (senseBed b s).cranes = s.cranes ∧ (senseBed b s).yardStop = s.yardStop ∧
    (senseBed b s).cranesLoaded = s.cranesLoaded ∧ (senseBed b s).moves = s.moves ∧
    (senseBed b s).clockMs = s.clockMs := by
  simp only [senseBed]
  (repeat' split) <;> simp

@[simp] theorem judgeFlags_keeps (b : Fin 24) (c : CureContext) (s : State) :
    (judgeFlags b c s).pending = s.pending ∧ (judgeFlags b c s).mem = s.mem ∧ (judgeFlags b c s).host = s.host ∧
    (judgeFlags b c s).dir = s.dir ∧ (judgeFlags b c s).load = s.load ∧ (judgeFlags b c s).mixes = s.mixes ∧
    (judgeFlags b c s).freeCount = s.freeCount ∧ (judgeFlags b c s).steam = s.steam ∧
    (judgeFlags b c s).roster = s.roster ∧ (judgeFlags b c s).loops = s.loops ∧
    (judgeFlags b c s).rosterLoaded = s.rosterLoaded ∧ (judgeFlags b c s).stock = s.stock ∧
    (judgeFlags b c s).cranes = s.cranes ∧ (judgeFlags b c s).yardStop = s.yardStop ∧
    (judgeFlags b c s).cranesLoaded = s.cranesLoaded ∧ (judgeFlags b c s).moves = s.moves ∧
    (judgeFlags b c s).clockMs = s.clockMs := by
  simp only [judgeFlags]
  simp

@[simp] theorem advanceBed_keeps (b : Fin 24) (s : State) :
    (advanceBed b s).pending = s.pending ∧ (advanceBed b s).mem = s.mem ∧ (advanceBed b s).host = s.host ∧
    (advanceBed b s).dir = s.dir ∧ (advanceBed b s).load = s.load ∧ (advanceBed b s).mixes = s.mixes ∧
    (advanceBed b s).freeCount = s.freeCount ∧ (advanceBed b s).steam = s.steam ∧
    (advanceBed b s).roster = s.roster ∧ (advanceBed b s).loops = s.loops ∧
    (advanceBed b s).rosterLoaded = s.rosterLoaded ∧ (advanceBed b s).stock = s.stock ∧
    (advanceBed b s).cranes = s.cranes ∧ (advanceBed b s).yardStop = s.yardStop ∧
    (advanceBed b s).cranesLoaded = s.cranesLoaded ∧ (advanceBed b s).moves = s.moves ∧
    (advanceBed b s).clockMs = s.clockMs := by
  simp only [advanceBed]
  (repeat' split) <;> simp

@[simp] theorem closeStep_keeps (b : Fin 24) (s : State) :
    (closeStep b s).pending = s.pending ∧ (closeStep b s).mem = s.mem ∧ (closeStep b s).host = s.host ∧
    (closeStep b s).dir = s.dir ∧ (closeStep b s).load = s.load ∧ (closeStep b s).mixes = s.mixes ∧
    (closeStep b s).freeCount = s.freeCount ∧ (closeStep b s).steam = s.steam ∧ (closeStep b s).roster = s.roster ∧
    (closeStep b s).loops = s.loops ∧ (closeStep b s).rosterLoaded = s.rosterLoaded ∧
    (closeStep b s).stock = s.stock ∧ (closeStep b s).cranes = s.cranes ∧ (closeStep b s).yardStop = s.yardStop ∧
    (closeStep b s).cranesLoaded = s.cranesLoaded ∧ (closeStep b s).moves = s.moves ∧
    (closeStep b s).clockMs = s.clockMs := by
  simp only [closeStep]
  (repeat' split) <;> simp

@[simp] theorem controlBed_keeps (b : Fin 24) (s : State) :
    (controlBed b s).pending = s.pending ∧ (controlBed b s).mem = s.mem ∧ (controlBed b s).host = s.host ∧
    (controlBed b s).dir = s.dir ∧ (controlBed b s).load = s.load ∧ (controlBed b s).mixes = s.mixes ∧
    (controlBed b s).freeCount = s.freeCount ∧ (controlBed b s).steam = s.steam ∧
    (controlBed b s).roster = s.roster ∧ (controlBed b s).loops = s.loops ∧
    (controlBed b s).rosterLoaded = s.rosterLoaded ∧ (controlBed b s).stock = s.stock ∧
    (controlBed b s).cranes = s.cranes ∧ (controlBed b s).yardStop = s.yardStop ∧
    (controlBed b s).cranesLoaded = s.cranesLoaded ∧ (controlBed b s).moves = s.moves ∧
    (controlBed b s).clockMs = s.clockMs := by
  simp only [controlBed]
  (repeat' split) <;> simp

@[simp] theorem maturityBed_keeps (b : Fin 24) (s : State) :
    (maturityBed b s).pending = s.pending ∧ (maturityBed b s).mem = s.mem ∧ (maturityBed b s).host = s.host ∧
    (maturityBed b s).dir = s.dir ∧ (maturityBed b s).load = s.load ∧ (maturityBed b s).mixes = s.mixes ∧
    (maturityBed b s).freeCount = s.freeCount ∧ (maturityBed b s).steam = s.steam ∧
    (maturityBed b s).roster = s.roster ∧ (maturityBed b s).loops = s.loops ∧
    (maturityBed b s).rosterLoaded = s.rosterLoaded ∧ (maturityBed b s).stock = s.stock ∧
    (maturityBed b s).cranes = s.cranes ∧ (maturityBed b s).yardStop = s.yardStop ∧
    (maturityBed b s).cranesLoaded = s.cranesLoaded ∧ (maturityBed b s).moves = s.moves ∧
    (maturityBed b s).clockMs = s.clockMs := by
  simp only [maturityBed]
  (repeat' split) <;> simp

@[simp] theorem startCure_keeps (b : Fin 24) (profile : Profile) (airs : List Int) (s : State) :
    (startCure b profile airs s).pending = s.pending ∧ (startCure b profile airs s).mem = s.mem ∧
    (startCure b profile airs s).host = s.host ∧ (startCure b profile airs s).path = s.path ∧
    (startCure b profile airs s).dir = s.dir ∧ (startCure b profile airs s).load = s.load ∧
    (startCure b profile airs s).mixes = s.mixes ∧ (startCure b profile airs s).freeCount = s.freeCount ∧
    (startCure b profile airs s).steam = s.steam ∧ (startCure b profile airs s).roster = s.roster ∧
    (startCure b profile airs s).loops = s.loops ∧ (startCure b profile airs s).rosterLoaded = s.rosterLoaded ∧
    (startCure b profile airs s).stock = s.stock ∧ (startCure b profile airs s).cranes = s.cranes ∧
    (startCure b profile airs s).yardStop = s.yardStop ∧
    (startCure b profile airs s).cranesLoaded = s.cranesLoaded ∧ (startCure b profile airs s).moves = s.moves ∧
    (startCure b profile airs s).clockMs = s.clockMs := by
  simp only [startCure]
  simp

@[simp] theorem endCure_keeps (b : Fin 24) (s : State) :
    (endCure b s).pending = s.pending ∧ (endCure b s).mem = s.mem ∧ (endCure b s).host = s.host ∧
    (endCure b s).dir = s.dir ∧ (endCure b s).load = s.load ∧ (endCure b s).mixes = s.mixes ∧
    (endCure b s).freeCount = s.freeCount ∧ (endCure b s).steam = s.steam ∧ (endCure b s).roster = s.roster ∧
    (endCure b s).loops = s.loops ∧ (endCure b s).rosterLoaded = s.rosterLoaded ∧ (endCure b s).stock = s.stock ∧
    (endCure b s).cranes = s.cranes ∧ (endCure b s).yardStop = s.yardStop ∧
    (endCure b s).cranesLoaded = s.cranesLoaded ∧ (endCure b s).moves = s.moves ∧ (endCure b s).clockMs = s.clockMs := by
  simp only [endCure]
  simp

@[simp] theorem discardTake_keeps (b : Fin 24) (s : State) :
    (discardTake b s).pending = s.pending ∧ (discardTake b s).mem = s.mem ∧ (discardTake b s).host = s.host ∧
    (discardTake b s).path = s.path ∧ (discardTake b s).dir = s.dir ∧ (discardTake b s).load = s.load ∧
    (discardTake b s).mixes = s.mixes ∧ (discardTake b s).freeCount = s.freeCount ∧
    (discardTake b s).steam = s.steam ∧ (discardTake b s).roster = s.roster ∧ (discardTake b s).loops = s.loops ∧
    (discardTake b s).rosterLoaded = s.rosterLoaded ∧ (discardTake b s).stock = s.stock ∧
    (discardTake b s).cranes = s.cranes ∧ (discardTake b s).yardStop = s.yardStop ∧
    (discardTake b s).cranesLoaded = s.cranesLoaded ∧ (discardTake b s).moves = s.moves ∧
    (discardTake b s).clockMs = s.clockMs := by
  simp only [discardTake]
  (repeat' split) <;> simp

@[simp] theorem takeRequested_keeps (b : Fin 24) (failed : Bool) (s : State) :
    (takeRequested b failed s).pending = s.pending ∧ (takeRequested b failed s).mem = s.mem ∧
    (takeRequested b failed s).host = s.host ∧ (takeRequested b failed s).dir = s.dir ∧
    (takeRequested b failed s).load = s.load ∧ (takeRequested b failed s).mixes = s.mixes ∧
    (takeRequested b failed s).freeCount = s.freeCount ∧ (takeRequested b failed s).steam = s.steam ∧
    (takeRequested b failed s).roster = s.roster ∧ (takeRequested b failed s).loops = s.loops ∧
    (takeRequested b failed s).rosterLoaded = s.rosterLoaded ∧ (takeRequested b failed s).stock = s.stock ∧
    (takeRequested b failed s).cranes = s.cranes ∧ (takeRequested b failed s).yardStop = s.yardStop ∧
    (takeRequested b failed s).cranesLoaded = s.cranesLoaded ∧ (takeRequested b failed s).moves = s.moves ∧
    (takeRequested b failed s).clockMs = s.clockMs := by
  simp only [takeRequested]
  (repeat' split) <;> simp

@[simp] theorem takeExamined_keeps (b : Fin 24) (data : Option (List Word)) (s : State) :
    (takeExamined b data s).pending = s.pending ∧ (takeExamined b data s).mem = s.mem ∧
    (takeExamined b data s).host = s.host ∧ (takeExamined b data s).dir = s.dir ∧
    (takeExamined b data s).load = s.load ∧ (takeExamined b data s).mixes = s.mixes ∧
    (takeExamined b data s).freeCount = s.freeCount ∧ (takeExamined b data s).steam = s.steam ∧
    (takeExamined b data s).roster = s.roster ∧ (takeExamined b data s).loops = s.loops ∧
    (takeExamined b data s).rosterLoaded = s.rosterLoaded ∧ (takeExamined b data s).stock = s.stock ∧
    (takeExamined b data s).cranes = s.cranes ∧ (takeExamined b data s).yardStop = s.yardStop ∧
    (takeExamined b data s).cranesLoaded = s.cranesLoaded ∧ (takeExamined b data s).moves = s.moves ∧
    (takeExamined b data s).clockMs = s.clockMs := by
  simp only [takeExamined]
  (repeat' split) <;> simp

theorem takeGroup_keeps (b : Fin 24) (s : State) (out : (State × List Span × Completion)) (h : takeGroup b s = some out) :
    out.1.pending = s.pending ∧ out.1.mem = s.mem ∧ out.1.host = s.host ∧ out.1.path = s.path ∧ out.1.dir = s.dir ∧
    out.1.load = s.load ∧ out.1.mixes = s.mixes ∧ out.1.freeCount = s.freeCount ∧ out.1.steam = s.steam ∧
    out.1.roster = s.roster ∧ out.1.loops = s.loops ∧ out.1.rosterLoaded = s.rosterLoaded ∧ out.1.stock = s.stock ∧
    out.1.cranes = s.cranes ∧ out.1.yardStop = s.yardStop ∧ out.1.cranesLoaded = s.cranesLoaded ∧
    out.1.moves = s.moves ∧ out.1.clockMs = s.clockMs := by
  simp only [takeGroup] at h
  (repeat' split at h) <;> first | (cases h; done) | (cases h; simp)

theorem takeRefusedGroup_keeps (b : Fin 24) (s : State) (out : (State × List Span × Completion)) (h : takeRefusedGroup b s = some out) :
    out.1.pending = s.pending ∧ out.1.mem = s.mem ∧ out.1.host = s.host ∧ out.1.path = s.path ∧ out.1.dir = s.dir ∧
    out.1.load = s.load ∧ out.1.mixes = s.mixes ∧ out.1.freeCount = s.freeCount ∧ out.1.steam = s.steam ∧
    out.1.roster = s.roster ∧ out.1.loops = s.loops ∧ out.1.rosterLoaded = s.rosterLoaded ∧ out.1.stock = s.stock ∧
    out.1.cranes = s.cranes ∧ out.1.yardStop = s.yardStop ∧ out.1.cranesLoaded = s.cranesLoaded ∧
    out.1.moves = s.moves ∧ out.1.clockMs = s.clockMs := by
  simp only [takeRefusedGroup] at h
  (repeat' split at h) <;> first | (cases h; done) | (cases h; simp)

@[simp] theorem takeDone_keeps (b : Fin 24) (s : State) :
    (takeDone b s).pending = s.pending ∧ (takeDone b s).mem = s.mem ∧ (takeDone b s).host = s.host ∧
    (takeDone b s).path = s.path ∧ (takeDone b s).dir = s.dir ∧ (takeDone b s).load = s.load ∧
    (takeDone b s).mixes = s.mixes ∧ (takeDone b s).freeCount = s.freeCount ∧ (takeDone b s).steam = s.steam ∧
    (takeDone b s).roster = s.roster ∧ (takeDone b s).loops = s.loops ∧
    (takeDone b s).rosterLoaded = s.rosterLoaded ∧ (takeDone b s).stock = s.stock ∧
    (takeDone b s).cranes = s.cranes ∧ (takeDone b s).yardStop = s.yardStop ∧
    (takeDone b s).cranesLoaded = s.cranesLoaded ∧ (takeDone b s).moves = s.moves ∧
    (takeDone b s).clockMs = s.clockMs := by
  simp only [takeDone]
  simp

@[simp] theorem curingSafe_keeps (s : State) :
    (curingSafe s).pending = s.pending ∧ (curingSafe s).mem = s.mem ∧ (curingSafe s).host = s.host ∧
    (curingSafe s).path = s.path ∧ (curingSafe s).dir = s.dir ∧ (curingSafe s).load = s.load ∧
    (curingSafe s).mixes = s.mixes ∧ (curingSafe s).freeCount = s.freeCount ∧ (curingSafe s).steam = s.steam ∧
    (curingSafe s).roster = s.roster ∧ (curingSafe s).loops = s.loops ∧
    (curingSafe s).rosterLoaded = s.rosterLoaded ∧ (curingSafe s).stock = s.stock ∧
    (curingSafe s).cranes = s.cranes ∧ (curingSafe s).yardStop = s.yardStop ∧
    (curingSafe s).cranesLoaded = s.cranesLoaded ∧ (curingSafe s).moves = s.moves ∧
    (curingSafe s).clockMs = s.clockMs := by
  simp only [curingSafe]
  refine ⟨forBeds_pending _ ?_ _, forBeds_mem _ ?_ _, forBeds_host _ ?_ _, forBeds_path _ ?_ _, forBeds_dir _ ?_ _, forBeds_load _ ?_ _, forBeds_mixes _ ?_ _, forBeds_freeCount _ ?_ _, forBeds_steam _ ?_ _, forBeds_roster _ ?_ _, forBeds_loops _ ?_ _, forBeds_rosterLoaded _ ?_ _, forBeds_stock _ ?_ _, forBeds_cranes _ ?_ _, forBeds_yardStop _ ?_ _, forBeds_cranesLoaded _ ?_ _, forBeds_moves _ ?_ _, forBeds_clockMs _ ?_ _⟩ <;>
    (intro b s; simp)

end Sys2Proof.Machine
end

