-- ==== Sys2Proof/Laws/Beds.lean ====
section
/-! SUPPORT. What each operation of Machine/Beds.lean leaves as it was: the fields of State it never writes. -/

namespace Sys2Proof.Machine

@[simp] theorem changeUse_keeps (mix : Nat) (change : Int) (s : State) :
    (changeUse mix change s).pending = s.pending ∧ (changeUse mix change s).mem = s.mem ∧
    (changeUse mix change s).host = s.host ∧ (changeUse mix change s).path = s.path ∧
    (changeUse mix change s).dir = s.dir ∧ (changeUse mix change s).load = s.load ∧
    (changeUse mix change s).beds = s.beds ∧ (changeUse mix change s).freeCount = s.freeCount ∧
    (changeUse mix change s).steam = s.steam ∧ (changeUse mix change s).roster = s.roster ∧
    (changeUse mix change s).loops = s.loops ∧ (changeUse mix change s).rosterLoaded = s.rosterLoaded ∧
    (changeUse mix change s).stock = s.stock ∧ (changeUse mix change s).cranes = s.cranes ∧
    (changeUse mix change s).yardStop = s.yardStop ∧ (changeUse mix change s).cranesLoaded = s.cranesLoaded ∧
    (changeUse mix change s).moves = s.moves ∧ (changeUse mix change s).clockMs = s.clockMs := by
  simp only [changeUse]
  simp

@[simp] theorem setBedState_keeps (b : Fin 24) (new : BedState) (s : State) :
    (setBedState b new s).pending = s.pending ∧ (setBedState b new s).mem = s.mem ∧
    (setBedState b new s).host = s.host ∧ (setBedState b new s).path = s.path ∧ (setBedState b new s).dir = s.dir ∧
    (setBedState b new s).load = s.load ∧ (setBedState b new s).freeCount = s.freeCount ∧
    (setBedState b new s).steam = s.steam ∧ (setBedState b new s).roster = s.roster ∧
    (setBedState b new s).loops = s.loops ∧ (setBedState b new s).rosterLoaded = s.rosterLoaded ∧
    (setBedState b new s).stock = s.stock ∧ (setBedState b new s).cranes = s.cranes ∧
    (setBedState b new s).yardStop = s.yardStop ∧ (setBedState b new s).cranesLoaded = s.cranesLoaded ∧
    (setBedState b new s).moves = s.moves ∧ (setBedState b new s).clockMs = s.clockMs := by
  simp only [setBedState]
  (repeat' split) <;> simp

@[simp] theorem postBedState_keeps (b : Fin 24) (change : Option (BedState × BedState)) (s : State) :
    (postBedState b change s).pending = s.pending ∧ (postBedState b change s).mem = s.mem ∧
    (postBedState b change s).host = s.host ∧ (postBedState b change s).path = s.path ∧
    (postBedState b change s).dir = s.dir ∧ (postBedState b change s).load = s.load ∧
    (postBedState b change s).beds = s.beds ∧ (postBedState b change s).mixes = s.mixes ∧
    (postBedState b change s).freeCount = s.freeCount ∧ (postBedState b change s).steam = s.steam ∧
    (postBedState b change s).roster = s.roster ∧ (postBedState b change s).loops = s.loops ∧
    (postBedState b change s).rosterLoaded = s.rosterLoaded ∧ (postBedState b change s).stock = s.stock ∧
    (postBedState b change s).cranes = s.cranes ∧ (postBedState b change s).yardStop = s.yardStop ∧
    (postBedState b change s).cranesLoaded = s.cranesLoaded ∧ (postBedState b change s).moves = s.moves ∧
    (postBedState b change s).clockMs = s.clockMs := by
  simp only [postBedState]
  (repeat' split) <;> simp

@[simp] theorem pieceFreed_keeps (n : Nat) (s : State) :
    (pieceFreed n s).pending = s.pending ∧ (pieceFreed n s).mem = s.mem ∧ (pieceFreed n s).host = s.host ∧
    (pieceFreed n s).path = s.path ∧ (pieceFreed n s).dir = s.dir ∧ (pieceFreed n s).load = s.load ∧
    (pieceFreed n s).beds = s.beds ∧ (pieceFreed n s).steam = s.steam ∧ (pieceFreed n s).roster = s.roster ∧
    (pieceFreed n s).loops = s.loops ∧ (pieceFreed n s).rosterLoaded = s.rosterLoaded ∧
    (pieceFreed n s).cranes = s.cranes ∧ (pieceFreed n s).yardStop = s.yardStop ∧
    (pieceFreed n s).cranesLoaded = s.cranesLoaded ∧ (pieceFreed n s).moves = s.moves ∧
    (pieceFreed n s).clockMs = s.clockMs := by
  simp only [pieceFreed]
  (repeat' split) <;> simp

@[simp] theorem startFreeing_keeps (n : Nat) (s : State) :
    (startFreeing n s).pending = s.pending ∧ (startFreeing n s).mem = s.mem ∧ (startFreeing n s).host = s.host ∧
    (startFreeing n s).path = s.path ∧ (startFreeing n s).dir = s.dir ∧ (startFreeing n s).load = s.load ∧
    (startFreeing n s).beds = s.beds ∧ (startFreeing n s).mixes = s.mixes ∧
    (startFreeing n s).freeCount = s.freeCount ∧ (startFreeing n s).steam = s.steam ∧
    (startFreeing n s).roster = s.roster ∧ (startFreeing n s).loops = s.loops ∧
    (startFreeing n s).rosterLoaded = s.rosterLoaded ∧ (startFreeing n s).cranes = s.cranes ∧
    (startFreeing n s).yardStop = s.yardStop ∧ (startFreeing n s).cranesLoaded = s.cranesLoaded ∧
    (startFreeing n s).moves = s.moves ∧ (startFreeing n s).clockMs = s.clockMs := by
  simp only [startFreeing]
  (repeat' split) <;> simp

@[simp] theorem askIntake_keeps (b : Fin 24) (s : State) :
    (askIntake b s).pending = s.pending ∧ (askIntake b s).mem = s.mem ∧ (askIntake b s).host = s.host ∧
    (askIntake b s).dir = s.dir ∧ (askIntake b s).load = s.load ∧ (askIntake b s).mixes = s.mixes ∧
    (askIntake b s).freeCount = s.freeCount ∧ (askIntake b s).steam = s.steam ∧ (askIntake b s).roster = s.roster ∧
    (askIntake b s).loops = s.loops ∧ (askIntake b s).rosterLoaded = s.rosterLoaded ∧
    (askIntake b s).stock = s.stock ∧ (askIntake b s).cranes = s.cranes ∧ (askIntake b s).yardStop = s.yardStop ∧
    (askIntake b s).cranesLoaded = s.cranesLoaded ∧ (askIntake b s).moves = s.moves ∧
    (askIntake b s).clockMs = s.clockMs := by
  simp only [askIntake]
  (repeat' split) <;> simp

@[simp] theorem formResult_keeps (b : Fin 24) (r : BedRequest) (s : State) :
    (formResult b r s).pending = s.pending ∧ (formResult b r s).mem = s.mem ∧ (formResult b r s).host = s.host ∧
    (formResult b r s).dir = s.dir ∧ (formResult b r s).load = s.load ∧ (formResult b r s).mixes = s.mixes ∧
    (formResult b r s).freeCount = s.freeCount ∧ (formResult b r s).steam = s.steam ∧
    (formResult b r s).roster = s.roster ∧ (formResult b r s).loops = s.loops ∧
    (formResult b r s).rosterLoaded = s.rosterLoaded ∧ (formResult b r s).stock = s.stock ∧
    (formResult b r s).cranes = s.cranes ∧ (formResult b r s).yardStop = s.yardStop ∧
    (formResult b r s).cranesLoaded = s.cranesLoaded ∧ (formResult b r s).moves = s.moves ∧
    (formResult b r s).clockMs = s.clockMs := by
  simp only [formResult]
  simp

@[simp] theorem bedPosted_keeps (b : Fin 24) (code : BedCode) (failed : Bool) (s : State) :
    (bedPosted b code failed s).pending = s.pending ∧ (bedPosted b code failed s).mem = s.mem ∧
    (bedPosted b code failed s).host = s.host ∧ (bedPosted b code failed s).dir = s.dir ∧
    (bedPosted b code failed s).load = s.load ∧ (bedPosted b code failed s).mixes = s.mixes ∧
    (bedPosted b code failed s).steam = s.steam ∧ (bedPosted b code failed s).roster = s.roster ∧
    (bedPosted b code failed s).loops = s.loops ∧ (bedPosted b code failed s).rosterLoaded = s.rosterLoaded ∧
    (bedPosted b code failed s).stock = s.stock ∧ (bedPosted b code failed s).cranes = s.cranes ∧
    (bedPosted b code failed s).yardStop = s.yardStop ∧ (bedPosted b code failed s).cranesLoaded = s.cranesLoaded ∧
    (bedPosted b code failed s).moves = s.moves ∧ (bedPosted b code failed s).clockMs = s.clockMs := by
  simp only [bedPosted]
  (repeat' split) <;> simp

@[simp] theorem reservePieces_keeps (ns : List Nat) (s : State) :
    (reservePieces ns s).pending = s.pending ∧ (reservePieces ns s).mem = s.mem ∧
    (reservePieces ns s).host = s.host ∧ (reservePieces ns s).path = s.path ∧ (reservePieces ns s).dir = s.dir ∧
    (reservePieces ns s).load = s.load ∧ (reservePieces ns s).beds = s.beds ∧ (reservePieces ns s).mixes = s.mixes ∧
    (reservePieces ns s).freeCount = s.freeCount ∧ (reservePieces ns s).steam = s.steam ∧
    (reservePieces ns s).roster = s.roster ∧ (reservePieces ns s).loops = s.loops ∧
    (reservePieces ns s).rosterLoaded = s.rosterLoaded ∧ (reservePieces ns s).cranes = s.cranes ∧
    (reservePieces ns s).yardStop = s.yardStop ∧ (reservePieces ns s).cranesLoaded = s.cranesLoaded ∧
    (reservePieces ns s).moves = s.moves ∧ (reservePieces ns s).clockMs = s.clockMs := by
  simp only [reservePieces]
  refine ⟨foldl_pending _ ?_ _ _, foldl_mem _ ?_ _ _, foldl_host _ ?_ _ _, foldl_path _ ?_ _ _, foldl_dir _ ?_ _ _, foldl_load _ ?_ _ _, foldl_beds _ ?_ _ _, foldl_mixes _ ?_ _ _, foldl_freeCount _ ?_ _ _, foldl_steam _ ?_ _ _, foldl_roster _ ?_ _ _, foldl_loops _ ?_ _ _, foldl_rosterLoaded _ ?_ _ _, foldl_cranes _ ?_ _ _, foldl_yardStop _ ?_ _ _, foldl_cranesLoaded _ ?_ _ _, foldl_moves _ ?_ _ _, foldl_clockMs _ ?_ _ _⟩ <;>
    (intro s x; (repeat' split) <;> simp)

@[simp] theorem examineBed_keeps (b : Fin 24) (r : BedRequest) (record : List Word) (s : State) :
    (examineBed b r record s).pending = s.pending ∧ (examineBed b r record s).mem = s.mem ∧
    (examineBed b r record s).host = s.host ∧ (examineBed b r record s).dir = s.dir ∧
    (examineBed b r record s).load = s.load ∧ (examineBed b r record s).mixes = s.mixes ∧
    (examineBed b r record s).freeCount = s.freeCount ∧ (examineBed b r record s).steam = s.steam ∧
    (examineBed b r record s).roster = s.roster ∧ (examineBed b r record s).loops = s.loops ∧
    (examineBed b r record s).rosterLoaded = s.rosterLoaded ∧ (examineBed b r record s).cranes = s.cranes ∧
    (examineBed b r record s).yardStop = s.yardStop ∧ (examineBed b r record s).cranesLoaded = s.cranesLoaded ∧
    (examineBed b r record s).moves = s.moves ∧ (examineBed b r record s).clockMs = s.clockMs := by
  simp only [examineBed]
  (repeat' split) <;> simp

@[simp] theorem bedIntakeDone_keeps (b : Fin 24) (data : Option (List Word)) (s : State) :
    (bedIntakeDone b data s).pending = s.pending ∧ (bedIntakeDone b data s).mem = s.mem ∧
    (bedIntakeDone b data s).host = s.host ∧ (bedIntakeDone b data s).dir = s.dir ∧
    (bedIntakeDone b data s).load = s.load ∧ (bedIntakeDone b data s).mixes = s.mixes ∧
    (bedIntakeDone b data s).steam = s.steam ∧ (bedIntakeDone b data s).roster = s.roster ∧
    (bedIntakeDone b data s).loops = s.loops ∧ (bedIntakeDone b data s).rosterLoaded = s.rosterLoaded ∧
    (bedIntakeDone b data s).cranes = s.cranes ∧ (bedIntakeDone b data s).yardStop = s.yardStop ∧
    (bedIntakeDone b data s).cranesLoaded = s.cranesLoaded ∧ (bedIntakeDone b data s).moves = s.moves ∧
    (bedIntakeDone b data s).clockMs = s.clockMs := by
  simp only [bedIntakeDone]
  (repeat' split) <;> simp

@[simp] theorem castInto_keeps (b : Fin 24) (mix : Nat) (r : BedRequest) (n : Nat) (s : State) :
    (castInto b mix r n s).pending = s.pending ∧ (castInto b mix r n s).mem = s.mem ∧
    (castInto b mix r n s).host = s.host ∧ (castInto b mix r n s).path = s.path ∧
    (castInto b mix r n s).dir = s.dir ∧ (castInto b mix r n s).load = s.load ∧
    (castInto b mix r n s).beds = s.beds ∧ (castInto b mix r n s).mixes = s.mixes ∧
    (castInto b mix r n s).freeCount = s.freeCount ∧ (castInto b mix r n s).steam = s.steam ∧
    (castInto b mix r n s).roster = s.roster ∧ (castInto b mix r n s).loops = s.loops ∧
    (castInto b mix r n s).rosterLoaded = s.rosterLoaded ∧ (castInto b mix r n s).cranes = s.cranes ∧
    (castInto b mix r n s).yardStop = s.yardStop ∧ (castInto b mix r n s).cranesLoaded = s.cranesLoaded ∧
    (castInto b mix r n s).moves = s.moves ∧ (castInto b mix r n s).clockMs = s.clockMs := by
  simp only [castInto]
  (repeat' split) <;> simp

@[simp] theorem acceptBed_keeps (b : Fin 24) (r : BedRequest) (new : BedState) (s : State) :
    (acceptBed b r new s).pending = s.pending ∧ (acceptBed b r new s).mem = s.mem ∧
    (acceptBed b r new s).host = s.host ∧ (acceptBed b r new s).path = s.path ∧ (acceptBed b r new s).dir = s.dir ∧
    (acceptBed b r new s).load = s.load ∧ (acceptBed b r new s).freeCount = s.freeCount ∧
    (acceptBed b r new s).steam = s.steam ∧ (acceptBed b r new s).roster = s.roster ∧
    (acceptBed b r new s).loops = s.loops ∧ (acceptBed b r new s).rosterLoaded = s.rosterLoaded ∧
    (acceptBed b r new s).stock = s.stock ∧ (acceptBed b r new s).cranes = s.cranes ∧
    (acceptBed b r new s).yardStop = s.yardStop ∧ (acceptBed b r new s).cranesLoaded = s.cranesLoaded ∧
    (acceptBed b r new s).moves = s.moves ∧ (acceptBed b r new s).clockMs = s.clockMs := by
  simp only [acceptBed]
  (repeat' split) <;> simp

@[simp] theorem bedRequestGroup_keeps (b : Fin 24) (s : State) :
    (bedRequestGroup b s).1.pending = s.pending ∧ (bedRequestGroup b s).1.mem = s.mem ∧
    (bedRequestGroup b s).1.host = s.host ∧ (bedRequestGroup b s).1.path = s.path ∧
    (bedRequestGroup b s).1.dir = s.dir ∧ (bedRequestGroup b s).1.load = s.load ∧
    (bedRequestGroup b s).1.freeCount = s.freeCount ∧ (bedRequestGroup b s).1.steam = s.steam ∧
    (bedRequestGroup b s).1.roster = s.roster ∧ (bedRequestGroup b s).1.loops = s.loops ∧
    (bedRequestGroup b s).1.rosterLoaded = s.rosterLoaded ∧ (bedRequestGroup b s).1.cranes = s.cranes ∧
    (bedRequestGroup b s).1.yardStop = s.yardStop ∧ (bedRequestGroup b s).1.cranesLoaded = s.cranesLoaded ∧
    (bedRequestGroup b s).1.moves = s.moves ∧ (bedRequestGroup b s).1.clockMs = s.clockMs := by
  simp only [bedRequestGroup]
  (repeat' split) <;> simp

@[simp] theorem bedEvent_keeps (b : Fin 24) (e : BedEvent) (s : State) :
    (bedEvent b e s).pending = s.pending ∧ (bedEvent b e s).mem = s.mem ∧ (bedEvent b e s).host = s.host ∧
    (bedEvent b e s).dir = s.dir ∧ (bedEvent b e s).load = s.load ∧ (bedEvent b e s).mixes = s.mixes ∧
    (bedEvent b e s).freeCount = s.freeCount ∧ (bedEvent b e s).steam = s.steam ∧
    (bedEvent b e s).roster = s.roster ∧ (bedEvent b e s).loops = s.loops ∧
    (bedEvent b e s).rosterLoaded = s.rosterLoaded ∧ (bedEvent b e s).stock = s.stock ∧
    (bedEvent b e s).cranes = s.cranes ∧ (bedEvent b e s).yardStop = s.yardStop ∧
    (bedEvent b e s).cranesLoaded = s.cranesLoaded ∧ (bedEvent b e s).moves = s.moves ∧
    (bedEvent b e s).clockMs = s.clockMs := by
  simp only [bedEvent]
  (repeat' split) <;> simp

@[simp] theorem concreteGroup_keeps (b : Fin 24) (e : BedEvent) (s : State) :
    (concreteGroup b e s).1.pending = s.pending ∧ (concreteGroup b e s).1.mem = s.mem ∧
    (concreteGroup b e s).1.host = s.host ∧ (concreteGroup b e s).1.dir = s.dir ∧
    (concreteGroup b e s).1.load = s.load ∧ (concreteGroup b e s).1.freeCount = s.freeCount ∧
    (concreteGroup b e s).1.steam = s.steam ∧ (concreteGroup b e s).1.roster = s.roster ∧
    (concreteGroup b e s).1.loops = s.loops ∧ (concreteGroup b e s).1.rosterLoaded = s.rosterLoaded ∧
    (concreteGroup b e s).1.stock = s.stock ∧ (concreteGroup b e s).1.cranes = s.cranes ∧
    (concreteGroup b e s).1.yardStop = s.yardStop ∧ (concreteGroup b e s).1.cranesLoaded = s.cranesLoaded ∧
    (concreteGroup b e s).1.moves = s.moves ∧ (concreteGroup b e s).1.clockMs = s.clockMs := by
  simp only [concreteGroup]
  (repeat' split) <;> simp

@[simp] theorem afterEvent_keeps (b : Fin 24) (s : State) :
    (afterEvent b s).pending = s.pending ∧ (afterEvent b s).mem = s.mem ∧ (afterEvent b s).host = s.host ∧
    (afterEvent b s).dir = s.dir ∧ (afterEvent b s).load = s.load ∧ (afterEvent b s).mixes = s.mixes ∧
    (afterEvent b s).freeCount = s.freeCount ∧ (afterEvent b s).steam = s.steam ∧
    (afterEvent b s).roster = s.roster ∧ (afterEvent b s).loops = s.loops ∧
    (afterEvent b s).rosterLoaded = s.rosterLoaded ∧ (afterEvent b s).stock = s.stock ∧
    (afterEvent b s).cranes = s.cranes ∧ (afterEvent b s).yardStop = s.yardStop ∧
    (afterEvent b s).cranesLoaded = s.cranesLoaded ∧ (afterEvent b s).moves = s.moves ∧
    (afterEvent b s).clockMs = s.clockMs := by
  simp only [afterEvent]
  (repeat' split) <;> simp

@[simp] theorem bedEventGroup_keeps (b : Fin 24) (s : State) :
    (bedEventGroup b s).1.pending = s.pending ∧ (bedEventGroup b s).1.mem = s.mem ∧
    (bedEventGroup b s).1.host = s.host ∧ (bedEventGroup b s).1.dir = s.dir ∧ (bedEventGroup b s).1.load = s.load ∧
    (bedEventGroup b s).1.freeCount = s.freeCount ∧ (bedEventGroup b s).1.steam = s.steam ∧
    (bedEventGroup b s).1.roster = s.roster ∧ (bedEventGroup b s).1.loops = s.loops ∧
    (bedEventGroup b s).1.rosterLoaded = s.rosterLoaded ∧ (bedEventGroup b s).1.stock = s.stock ∧
    (bedEventGroup b s).1.cranes = s.cranes ∧ (bedEventGroup b s).1.yardStop = s.yardStop ∧
    (bedEventGroup b s).1.cranesLoaded = s.cranesLoaded ∧ (bedEventGroup b s).1.moves = s.moves ∧
    (bedEventGroup b s).1.clockMs = s.clockMs := by
  simp only [bedEventGroup]
  (repeat' split) <;> simp

@[simp] theorem piecesFreed_keeps (ns : List Nat) (s : State) :
    (piecesFreed ns s).pending = s.pending ∧ (piecesFreed ns s).mem = s.mem ∧ (piecesFreed ns s).host = s.host ∧
    (piecesFreed ns s).path = s.path ∧ (piecesFreed ns s).dir = s.dir ∧ (piecesFreed ns s).load = s.load ∧
    (piecesFreed ns s).beds = s.beds ∧ (piecesFreed ns s).steam = s.steam ∧ (piecesFreed ns s).roster = s.roster ∧
    (piecesFreed ns s).loops = s.loops ∧ (piecesFreed ns s).rosterLoaded = s.rosterLoaded ∧
    (piecesFreed ns s).cranes = s.cranes ∧ (piecesFreed ns s).yardStop = s.yardStop ∧
    (piecesFreed ns s).cranesLoaded = s.cranesLoaded ∧ (piecesFreed ns s).moves = s.moves ∧
    (piecesFreed ns s).clockMs = s.clockMs := by
  simp only [piecesFreed]
  (repeat' split) <;> simp

@[simp] theorem discardDone_keeps (b : Fin 24) (s : State) :
    (discardDone b s).pending = s.pending ∧ (discardDone b s).mem = s.mem ∧ (discardDone b s).host = s.host ∧
    (discardDone b s).path = s.path ∧ (discardDone b s).dir = s.dir ∧ (discardDone b s).load = s.load ∧
    (discardDone b s).mixes = s.mixes ∧ (discardDone b s).freeCount = s.freeCount ∧
    (discardDone b s).steam = s.steam ∧ (discardDone b s).roster = s.roster ∧ (discardDone b s).loops = s.loops ∧
    (discardDone b s).rosterLoaded = s.rosterLoaded ∧ (discardDone b s).stock = s.stock ∧
    (discardDone b s).cranes = s.cranes ∧ (discardDone b s).yardStop = s.yardStop ∧
    (discardDone b s).cranesLoaded = s.cranesLoaded ∧ (discardDone b s).moves = s.moves ∧
    (discardDone b s).clockMs = s.clockMs := by
  simp only [discardDone]
  (repeat' split) <;> simp

@[simp] theorem bedPartDone_keeps (b : Fin 24) (freed : List Nat) (s : State) :
    (bedPartDone b freed s).pending = s.pending ∧ (bedPartDone b freed s).mem = s.mem ∧
    (bedPartDone b freed s).host = s.host ∧ (bedPartDone b freed s).dir = s.dir ∧
    (bedPartDone b freed s).load = s.load ∧ (bedPartDone b freed s).steam = s.steam ∧
    (bedPartDone b freed s).roster = s.roster ∧ (bedPartDone b freed s).loops = s.loops ∧
    (bedPartDone b freed s).rosterLoaded = s.rosterLoaded ∧ (bedPartDone b freed s).cranes = s.cranes ∧
    (bedPartDone b freed s).yardStop = s.yardStop ∧ (bedPartDone b freed s).cranesLoaded = s.cranesLoaded ∧
    (bedPartDone b freed s).moves = s.moves ∧ (bedPartDone b freed s).clockMs = s.clockMs := by
  simp only [bedPartDone]
  (repeat' split) <;> simp

@[simp] theorem bedResultDone_keeps (b : Fin 24) (freed : List Nat) (change : Option (BedState × BedState)) (s : State) :
    (bedResultDone b freed change s).pending = s.pending ∧ (bedResultDone b freed change s).mem = s.mem ∧
    (bedResultDone b freed change s).host = s.host ∧ (bedResultDone b freed change s).dir = s.dir ∧
    (bedResultDone b freed change s).load = s.load ∧ (bedResultDone b freed change s).steam = s.steam ∧
    (bedResultDone b freed change s).roster = s.roster ∧ (bedResultDone b freed change s).loops = s.loops ∧
    (bedResultDone b freed change s).rosterLoaded = s.rosterLoaded ∧
    (bedResultDone b freed change s).cranes = s.cranes ∧ (bedResultDone b freed change s).yardStop = s.yardStop ∧
    (bedResultDone b freed change s).cranesLoaded = s.cranesLoaded ∧
    (bedResultDone b freed change s).moves = s.moves ∧ (bedResultDone b freed change s).clockMs = s.clockMs := by
  simp only [bedResultDone]
  (repeat' split) <;> simp

@[simp] theorem bedEventDone_keeps (b : Fin 24) (change : Option (BedState × BedState)) (s : State) :
    (bedEventDone b change s).pending = s.pending ∧ (bedEventDone b change s).mem = s.mem ∧
    (bedEventDone b change s).host = s.host ∧ (bedEventDone b change s).path = s.path ∧
    (bedEventDone b change s).dir = s.dir ∧ (bedEventDone b change s).load = s.load ∧
    (bedEventDone b change s).mixes = s.mixes ∧ (bedEventDone b change s).freeCount = s.freeCount ∧
    (bedEventDone b change s).steam = s.steam ∧ (bedEventDone b change s).roster = s.roster ∧
    (bedEventDone b change s).loops = s.loops ∧ (bedEventDone b change s).rosterLoaded = s.rosterLoaded ∧
    (bedEventDone b change s).stock = s.stock ∧ (bedEventDone b change s).cranes = s.cranes ∧
    (bedEventDone b change s).yardStop = s.yardStop ∧ (bedEventDone b change s).cranesLoaded = s.cranesLoaded ∧
    (bedEventDone b change s).moves = s.moves ∧ (bedEventDone b change s).clockMs = s.clockMs := by
  simp only [bedEventDone]
  simp

theorem leaveBed_keeps (n : Nat) (s : State) (out : Fin 24 × State) (h : leaveBed n s = some out) :
    out.2.pending = s.pending ∧ out.2.mem = s.mem ∧ out.2.host = s.host ∧ out.2.path = s.path ∧ out.2.dir = s.dir ∧
    out.2.load = s.load ∧ out.2.notices = s.notices ∧ out.2.mixes = s.mixes ∧ out.2.freeCount = s.freeCount ∧
    out.2.steam = s.steam ∧ out.2.roster = s.roster ∧ out.2.loops = s.loops ∧ out.2.rosterLoaded = s.rosterLoaded ∧
    out.2.stock = s.stock ∧ out.2.cranes = s.cranes ∧ out.2.yardStop = s.yardStop ∧
    out.2.cranesLoaded = s.cranesLoaded ∧ out.2.moves = s.moves ∧ out.2.clockMs = s.clockMs := by
  simp only [leaveBed] at h
  (repeat' split at h) <;> first | (cases h; done) | (cases h; simp)

@[simp] theorem bedSpan_keeps (b : Fin 24) (s : State) :
    (bedSpan b s).1.pending = s.pending ∧ (bedSpan b s).1.mem = s.mem ∧ (bedSpan b s).1.host = s.host ∧
    (bedSpan b s).1.path = s.path ∧ (bedSpan b s).1.dir = s.dir ∧ (bedSpan b s).1.load = s.load ∧
    (bedSpan b s).1.freeCount = s.freeCount ∧ (bedSpan b s).1.steam = s.steam ∧
    (bedSpan b s).1.roster = s.roster ∧ (bedSpan b s).1.loops = s.loops ∧
    (bedSpan b s).1.rosterLoaded = s.rosterLoaded ∧ (bedSpan b s).1.stock = s.stock ∧
    (bedSpan b s).1.cranes = s.cranes ∧ (bedSpan b s).1.yardStop = s.yardStop ∧
    (bedSpan b s).1.cranesLoaded = s.cranesLoaded ∧ (bedSpan b s).1.moves = s.moves ∧
    (bedSpan b s).1.clockMs = s.clockMs := by
  simp only [bedSpan]
  (repeat' split) <;> simp

theorem departure_keeps (n : Nat) (s : State) (out : (State × Span)) (h : departure n s = some out) :
    out.1.pending = s.pending ∧ out.1.mem = s.mem ∧ out.1.host = s.host ∧ out.1.path = s.path ∧ out.1.dir = s.dir ∧
    out.1.load = s.load ∧ out.1.freeCount = s.freeCount ∧ out.1.steam = s.steam ∧ out.1.roster = s.roster ∧
    out.1.loops = s.loops ∧ out.1.rosterLoaded = s.rosterLoaded ∧ out.1.stock = s.stock ∧ out.1.cranes = s.cranes ∧
    out.1.yardStop = s.yardStop ∧ out.1.cranesLoaded = s.cranesLoaded ∧ out.1.moves = s.moves ∧
    out.1.clockMs = s.clockMs := by
  simp only [departure, Option.map_eq_some_iff] at h
  obtain ⟨x, hx, rfl⟩ := h
  have k := leaveBed_keeps n s x hx
  simp [k]

@[simp] theorem bedsSafe_keeps (s : State) :
    (bedsSafe s).pending = s.pending ∧ (bedsSafe s).mem = s.mem ∧ (bedsSafe s).host = s.host ∧
    (bedsSafe s).path = s.path ∧ (bedsSafe s).dir = s.dir ∧ (bedsSafe s).load = s.load ∧
    (bedsSafe s).mixes = s.mixes ∧ (bedsSafe s).freeCount = s.freeCount ∧ (bedsSafe s).steam = s.steam ∧
    (bedsSafe s).roster = s.roster ∧ (bedsSafe s).loops = s.loops ∧ (bedsSafe s).rosterLoaded = s.rosterLoaded ∧
    (bedsSafe s).stock = s.stock ∧ (bedsSafe s).cranes = s.cranes ∧ (bedsSafe s).yardStop = s.yardStop ∧
    (bedsSafe s).cranesLoaded = s.cranesLoaded ∧ (bedsSafe s).moves = s.moves ∧ (bedsSafe s).clockMs = s.clockMs := by
  simp only [bedsSafe]
  refine ⟨forBeds_pending _ ?_ _, forBeds_mem _ ?_ _, forBeds_host _ ?_ _, forBeds_path _ ?_ _, forBeds_dir _ ?_ _, forBeds_load _ ?_ _, forBeds_mixes _ ?_ _, forBeds_freeCount _ ?_ _, forBeds_steam _ ?_ _, forBeds_roster _ ?_ _, forBeds_loops _ ?_ _, forBeds_rosterLoaded _ ?_ _, forBeds_stock _ ?_ _, forBeds_cranes _ ?_ _, forBeds_yardStop _ ?_ _, forBeds_cranesLoaded _ ?_ _, forBeds_moves _ ?_ _, forBeds_clockMs _ ?_ _⟩ <;>
    (intro b s; simp)

@[simp] theorem controlStep_keeps (s : State) :
    (controlStep s).pending = s.pending ∧ (controlStep s).mem = s.mem ∧ (controlStep s).host = s.host ∧
    (controlStep s).dir = s.dir ∧ (controlStep s).load = s.load ∧ (controlStep s).mixes = s.mixes ∧
    (controlStep s).freeCount = s.freeCount ∧ (controlStep s).steam = s.steam ∧ (controlStep s).roster = s.roster ∧
    (controlStep s).loops = s.loops ∧ (controlStep s).rosterLoaded = s.rosterLoaded ∧
    (controlStep s).stock = s.stock ∧ (controlStep s).cranes = s.cranes ∧ (controlStep s).yardStop = s.yardStop ∧
    (controlStep s).cranesLoaded = s.cranesLoaded ∧ (controlStep s).moves = s.moves ∧
    (controlStep s).clockMs = s.clockMs := by
  simp only [controlStep]
  split
  · refine ⟨forBeds_pending _ ?_ _, forBeds_mem _ ?_ _, forBeds_host _ ?_ _, forBeds_dir _ ?_ _, forBeds_load _ ?_ _, forBeds_mixes _ ?_ _, forBeds_freeCount _ ?_ _, forBeds_steam _ ?_ _, forBeds_roster _ ?_ _, forBeds_loops _ ?_ _, forBeds_rosterLoaded _ ?_ _, forBeds_stock _ ?_ _, forBeds_cranes _ ?_ _, forBeds_yardStop _ ?_ _, forBeds_cranesLoaded _ ?_ _, forBeds_moves _ ?_ _, forBeds_clockMs _ ?_ _⟩ <;>
      (intro b s; (repeat' split) <;> simp)
  · simp

@[simp] theorem maturityStep_keeps (s : State) :
    (maturityStep s).pending = s.pending ∧ (maturityStep s).mem = s.mem ∧ (maturityStep s).host = s.host ∧
    (maturityStep s).dir = s.dir ∧ (maturityStep s).load = s.load ∧ (maturityStep s).mixes = s.mixes ∧
    (maturityStep s).freeCount = s.freeCount ∧ (maturityStep s).steam = s.steam ∧
    (maturityStep s).roster = s.roster ∧ (maturityStep s).loops = s.loops ∧
    (maturityStep s).rosterLoaded = s.rosterLoaded ∧ (maturityStep s).stock = s.stock ∧
    (maturityStep s).cranes = s.cranes ∧ (maturityStep s).yardStop = s.yardStop ∧
    (maturityStep s).cranesLoaded = s.cranesLoaded ∧ (maturityStep s).moves = s.moves ∧
    (maturityStep s).clockMs = s.clockMs := by
  simp only [maturityStep]
  split
  · refine ⟨(forBeds_pending _ ?_ _).trans (by simp), (forBeds_mem _ ?_ _).trans (by simp), (forBeds_host _ ?_ _).trans (by simp), (forBeds_dir _ ?_ _).trans (by simp), (forBeds_load _ ?_ _).trans (by simp), (forBeds_mixes _ ?_ _).trans (by simp), (forBeds_freeCount _ ?_ _).trans (by simp), (forBeds_steam _ ?_ _).trans (by simp), (forBeds_roster _ ?_ _).trans (by simp), (forBeds_loops _ ?_ _).trans (by simp), (forBeds_rosterLoaded _ ?_ _).trans (by simp), (forBeds_stock _ ?_ _).trans (by simp), (forBeds_cranes _ ?_ _).trans (by simp), (forBeds_yardStop _ ?_ _).trans (by simp), (forBeds_cranesLoaded _ ?_ _).trans (by simp), (forBeds_moves _ ?_ _).trans (by simp), (forBeds_clockMs _ ?_ _).trans (by simp)⟩ <;>
      (intro b s; (repeat' split) <;> simp)
  · simp

@[simp] theorem takeResultGroup_keeps (b : Fin 24) (s : State) :
    (takeResultGroup b s).1.pending = s.pending ∧ (takeResultGroup b s).1.mem = s.mem ∧
    (takeResultGroup b s).1.host = s.host ∧ (takeResultGroup b s).1.dir = s.dir ∧
    (takeResultGroup b s).1.load = s.load ∧ (takeResultGroup b s).1.mixes = s.mixes ∧
    (takeResultGroup b s).1.freeCount = s.freeCount ∧ (takeResultGroup b s).1.steam = s.steam ∧
    (takeResultGroup b s).1.roster = s.roster ∧ (takeResultGroup b s).1.loops = s.loops ∧
    (takeResultGroup b s).1.rosterLoaded = s.rosterLoaded ∧ (takeResultGroup b s).1.stock = s.stock ∧
    (takeResultGroup b s).1.cranes = s.cranes ∧ (takeResultGroup b s).1.yardStop = s.yardStop ∧
    (takeResultGroup b s).1.cranesLoaded = s.cranesLoaded ∧ (takeResultGroup b s).1.moves = s.moves ∧
    (takeResultGroup b s).1.clockMs = s.clockMs := by
  simp only [takeResultGroup]
  split
  · rename_i h
    have k := takeGroup_keeps b s _ h
    simp only at k
    split <;> simp [k]
  · simp

end Sys2Proof.Machine
end

