-- ==== Sys2Proof/Laws/Stock.lean ====
section
/-! SUPPORT. What each operation of Machine/Stock.lean leaves as it was: the fields of State it never writes; and what the
claim test answers, claim by claim. -/

namespace Sys2Proof.Machine

@[simp] theorem joinClaim_keeps (slot : Nat) (c : Claim) (s : State) :
    (joinClaim slot c s).pending = s.pending ∧ (joinClaim slot c s).mem = s.mem ∧
    (joinClaim slot c s).host = s.host ∧ (joinClaim slot c s).path = s.path ∧ (joinClaim slot c s).dir = s.dir ∧
    (joinClaim slot c s).load = s.load ∧ (joinClaim slot c s).beds = s.beds ∧ (joinClaim slot c s).mixes = s.mixes ∧
    (joinClaim slot c s).freeCount = s.freeCount ∧ (joinClaim slot c s).steam = s.steam ∧
    (joinClaim slot c s).roster = s.roster ∧ (joinClaim slot c s).loops = s.loops ∧
    (joinClaim slot c s).rosterLoaded = s.rosterLoaded ∧ (joinClaim slot c s).cranes = s.cranes ∧
    (joinClaim slot c s).yardStop = s.yardStop ∧ (joinClaim slot c s).cranesLoaded = s.cranesLoaded ∧
    (joinClaim slot c s).moves = s.moves ∧ (joinClaim slot c s).clockMs = s.clockMs := by
  simp only [joinClaim]
  (repeat' split) <;> simp

@[simp] theorem grantClaims_keeps (move : Nat) (kind : MoveKind) (piece dest : Nat) (s : State) :
    (grantClaims move kind piece dest s).pending = s.pending ∧ (grantClaims move kind piece dest s).mem = s.mem ∧
    (grantClaims move kind piece dest s).host = s.host ∧ (grantClaims move kind piece dest s).path = s.path ∧
    (grantClaims move kind piece dest s).dir = s.dir ∧ (grantClaims move kind piece dest s).load = s.load ∧
    (grantClaims move kind piece dest s).beds = s.beds ∧ (grantClaims move kind piece dest s).mixes = s.mixes ∧
    (grantClaims move kind piece dest s).freeCount = s.freeCount ∧
    (grantClaims move kind piece dest s).steam = s.steam ∧ (grantClaims move kind piece dest s).roster = s.roster ∧
    (grantClaims move kind piece dest s).loops = s.loops ∧
    (grantClaims move kind piece dest s).rosterLoaded = s.rosterLoaded ∧
    (grantClaims move kind piece dest s).cranes = s.cranes ∧
    (grantClaims move kind piece dest s).yardStop = s.yardStop ∧
    (grantClaims move kind piece dest s).cranesLoaded = s.cranesLoaded ∧
    (grantClaims move kind piece dest s).moves = s.moves ∧ (grantClaims move kind piece dest s).clockMs = s.clockMs := by
  simp only [grantClaims]
  (repeat' split) <;> simp

@[simp] theorem readyCheck_keeps (n : Nat) (s : State) :
    (readyCheck n s).pending = s.pending ∧ (readyCheck n s).mem = s.mem ∧ (readyCheck n s).host = s.host ∧
    (readyCheck n s).path = s.path ∧ (readyCheck n s).dir = s.dir ∧ (readyCheck n s).load = s.load ∧
    (readyCheck n s).beds = s.beds ∧ (readyCheck n s).mixes = s.mixes ∧ (readyCheck n s).freeCount = s.freeCount ∧
    (readyCheck n s).steam = s.steam ∧ (readyCheck n s).roster = s.roster ∧ (readyCheck n s).loops = s.loops ∧
    (readyCheck n s).rosterLoaded = s.rosterLoaded ∧ (readyCheck n s).cranes = s.cranes ∧
    (readyCheck n s).yardStop = s.yardStop ∧ (readyCheck n s).cranesLoaded = s.cranesLoaded ∧
    (readyCheck n s).moves = s.moves ∧ (readyCheck n s).clockMs = s.clockMs := by
  simp only [readyCheck]
  (repeat' split) <;> simp

theorem pick_keeps (move piece : Nat) (s : State) (out : (State × List Span)) (h : pick move piece s = some out) :
    out.1.pending = s.pending ∧ out.1.mem = s.mem ∧ out.1.host = s.host ∧ out.1.path = s.path ∧ out.1.dir = s.dir ∧
    out.1.load = s.load ∧ out.1.freeCount = s.freeCount ∧ out.1.steam = s.steam ∧ out.1.roster = s.roster ∧
    out.1.loops = s.loops ∧ out.1.rosterLoaded = s.rosterLoaded ∧ out.1.cranes = s.cranes ∧
    out.1.yardStop = s.yardStop ∧ out.1.cranesLoaded = s.cranesLoaded ∧ out.1.moves = s.moves ∧
    out.1.clockMs = s.clockMs := by
  simp only [pick] at h
  (repeat' split at h) <;> first
    | (cases h; done)
    | (cases h; simp; done)
    | (cases h; rename_i hd; have k := departure_keeps _ _ _ hd; simp at k; simp [k])

theorem land_keeps (move piece dest : Nat) (s : State) (out : (State × List Span)) (h : land move piece dest s = some out) :
    out.1.pending = s.pending ∧ out.1.mem = s.mem ∧ out.1.host = s.host ∧ out.1.path = s.path ∧ out.1.dir = s.dir ∧
    out.1.load = s.load ∧ out.1.beds = s.beds ∧ out.1.mixes = s.mixes ∧ out.1.freeCount = s.freeCount ∧
    out.1.steam = s.steam ∧ out.1.roster = s.roster ∧ out.1.loops = s.loops ∧ out.1.rosterLoaded = s.rosterLoaded ∧
    out.1.cranes = s.cranes ∧ out.1.yardStop = s.yardStop ∧ out.1.cranesLoaded = s.cranesLoaded ∧
    out.1.moves = s.moves ∧ out.1.clockMs = s.clockMs := by
  simp only [land] at h
  (repeat' split at h) <;> first | (cases h; done) | (cases h; simp)

@[simp] theorem dropClaims_keeps (move piece : Nat) (s : State) :
    (dropClaims move piece s).pending = s.pending ∧ (dropClaims move piece s).mem = s.mem ∧
    (dropClaims move piece s).host = s.host ∧ (dropClaims move piece s).path = s.path ∧
    (dropClaims move piece s).dir = s.dir ∧ (dropClaims move piece s).load = s.load ∧
    (dropClaims move piece s).beds = s.beds ∧ (dropClaims move piece s).mixes = s.mixes ∧
    (dropClaims move piece s).freeCount = s.freeCount ∧ (dropClaims move piece s).steam = s.steam ∧
    (dropClaims move piece s).roster = s.roster ∧ (dropClaims move piece s).loops = s.loops ∧
    (dropClaims move piece s).rosterLoaded = s.rosterLoaded ∧ (dropClaims move piece s).cranes = s.cranes ∧
    (dropClaims move piece s).yardStop = s.yardStop ∧ (dropClaims move piece s).cranesLoaded = s.cranesLoaded ∧
    (dropClaims move piece s).moves = s.moves ∧ (dropClaims move piece s).clockMs = s.clockMs := by
  simp only [dropClaims]
  (repeat' split) <;> simp

@[simp] theorem releaseFailing_keeps (n : Nat) (ch : List Nat) (s : State) :
    (releaseFailing n ch s).1.pending = s.pending ∧ (releaseFailing n ch s).1.mem = s.mem ∧
    (releaseFailing n ch s).1.host = s.host ∧ (releaseFailing n ch s).1.path = s.path ∧
    (releaseFailing n ch s).1.dir = s.dir ∧ (releaseFailing n ch s).1.load = s.load ∧
    (releaseFailing n ch s).1.beds = s.beds ∧ (releaseFailing n ch s).1.mixes = s.mixes ∧
    (releaseFailing n ch s).1.freeCount = s.freeCount ∧ (releaseFailing n ch s).1.steam = s.steam ∧
    (releaseFailing n ch s).1.roster = s.roster ∧ (releaseFailing n ch s).1.loops = s.loops ∧
    (releaseFailing n ch s).1.rosterLoaded = s.rosterLoaded ∧ (releaseFailing n ch s).1.cranes = s.cranes ∧
    (releaseFailing n ch s).1.yardStop = s.yardStop ∧ (releaseFailing n ch s).1.cranesLoaded = s.cranesLoaded ∧
    (releaseFailing n ch s).1.moves = s.moves ∧ (releaseFailing n ch s).1.clockMs = s.clockMs := by
  induction n generalizing ch s with
  | zero => simp [releaseFailing]
  | succ n ih =>
    simp only [releaseFailing]
    split <;> simp [ih]

@[simp] theorem releaseMove_keeps (move piece : Nat) (s : State) :
    (releaseMove move piece s).1.pending = s.pending ∧ (releaseMove move piece s).1.mem = s.mem ∧
    (releaseMove move piece s).1.host = s.host ∧ (releaseMove move piece s).1.path = s.path ∧
    (releaseMove move piece s).1.dir = s.dir ∧ (releaseMove move piece s).1.load = s.load ∧
    (releaseMove move piece s).1.beds = s.beds ∧ (releaseMove move piece s).1.mixes = s.mixes ∧
    (releaseMove move piece s).1.freeCount = s.freeCount ∧ (releaseMove move piece s).1.steam = s.steam ∧
    (releaseMove move piece s).1.roster = s.roster ∧ (releaseMove move piece s).1.loops = s.loops ∧
    (releaseMove move piece s).1.rosterLoaded = s.rosterLoaded ∧ (releaseMove move piece s).1.cranes = s.cranes ∧
    (releaseMove move piece s).1.yardStop = s.yardStop ∧
    (releaseMove move piece s).1.cranesLoaded = s.cranesLoaded ∧ (releaseMove move piece s).1.moves = s.moves ∧
    (releaseMove move piece s).1.clockMs = s.clockMs := by
  simp only [releaseMove]
  simp

@[simp] theorem redirectClaims_keeps (m : Move) (dest : Nat) (s : State) :
    (redirectClaims m dest s).pending = s.pending ∧ (redirectClaims m dest s).mem = s.mem ∧
    (redirectClaims m dest s).host = s.host ∧ (redirectClaims m dest s).path = s.path ∧
    (redirectClaims m dest s).dir = s.dir ∧ (redirectClaims m dest s).load = s.load ∧
    (redirectClaims m dest s).beds = s.beds ∧ (redirectClaims m dest s).mixes = s.mixes ∧
    (redirectClaims m dest s).freeCount = s.freeCount ∧ (redirectClaims m dest s).steam = s.steam ∧
    (redirectClaims m dest s).roster = s.roster ∧ (redirectClaims m dest s).loops = s.loops ∧
    (redirectClaims m dest s).rosterLoaded = s.rosterLoaded ∧ (redirectClaims m dest s).cranes = s.cranes ∧
    (redirectClaims m dest s).yardStop = s.yardStop ∧ (redirectClaims m dest s).cranesLoaded = s.cranesLoaded ∧
    (redirectClaims m dest s).moves = s.moves ∧ (redirectClaims m dest s).clockMs = s.clockMs := by
  simp only [redirectClaims]
  (repeat' split) <;> simp

@[simp] theorem setRequest_keeps (n : Nat) (r : Option PieceRequest) (s : State) :
    (setRequest n r s).pending = s.pending ∧ (setRequest n r s).mem = s.mem ∧ (setRequest n r s).host = s.host ∧
    (setRequest n r s).path = s.path ∧ (setRequest n r s).dir = s.dir ∧ (setRequest n r s).load = s.load ∧
    (setRequest n r s).beds = s.beds ∧ (setRequest n r s).mixes = s.mixes ∧
    (setRequest n r s).freeCount = s.freeCount ∧ (setRequest n r s).steam = s.steam ∧
    (setRequest n r s).roster = s.roster ∧ (setRequest n r s).loops = s.loops ∧
    (setRequest n r s).rosterLoaded = s.rosterLoaded ∧ (setRequest n r s).cranes = s.cranes ∧
    (setRequest n r s).yardStop = s.yardStop ∧ (setRequest n r s).cranesLoaded = s.cranesLoaded ∧
    (setRequest n r s).moves = s.moves ∧ (setRequest n r s).clockMs = s.clockMs := by
  simp only [setRequest]
  (repeat' split) <;> simp

@[simp] theorem judgePiece_keeps (n : Nat) (code : PieceCode) (s : State) :
    (judgePiece n code s).1.pending = s.pending ∧ (judgePiece n code s).1.mem = s.mem ∧
    (judgePiece n code s).1.host = s.host ∧ (judgePiece n code s).1.path = s.path ∧
    (judgePiece n code s).1.dir = s.dir ∧ (judgePiece n code s).1.load = s.load ∧
    (judgePiece n code s).1.notices = s.notices ∧ (judgePiece n code s).1.mixes = s.mixes ∧
    (judgePiece n code s).1.freeCount = s.freeCount ∧ (judgePiece n code s).1.steam = s.steam ∧
    (judgePiece n code s).1.roster = s.roster ∧ (judgePiece n code s).1.loops = s.loops ∧
    (judgePiece n code s).1.rosterLoaded = s.rosterLoaded ∧ (judgePiece n code s).1.stock = s.stock ∧
    (judgePiece n code s).1.cranes = s.cranes ∧ (judgePiece n code s).1.yardStop = s.yardStop ∧
    (judgePiece n code s).1.cranesLoaded = s.cranesLoaded ∧ (judgePiece n code s).1.moves = s.moves ∧
    (judgePiece n code s).1.clockMs = s.clockMs := by
  simp only [judgePiece]
  (repeat' split) <;> first
    | (simp; done)
    | (rename_i hd; have k := leaveBed_keeps _ _ _ hd; simp at k; simp [k])

@[simp] theorem piecePosted_keeps (n : Nat) (code : PieceCode) (failed : Bool) (s : State) :
    (piecePosted n code failed s).pending = s.pending ∧ (piecePosted n code failed s).mem = s.mem ∧
    (piecePosted n code failed s).host = s.host ∧ (piecePosted n code failed s).dir = s.dir ∧
    (piecePosted n code failed s).load = s.load ∧ (piecePosted n code failed s).mixes = s.mixes ∧
    (piecePosted n code failed s).freeCount = s.freeCount ∧ (piecePosted n code failed s).steam = s.steam ∧
    (piecePosted n code failed s).roster = s.roster ∧ (piecePosted n code failed s).loops = s.loops ∧
    (piecePosted n code failed s).rosterLoaded = s.rosterLoaded ∧ (piecePosted n code failed s).cranes = s.cranes ∧
    (piecePosted n code failed s).yardStop = s.yardStop ∧
    (piecePosted n code failed s).cranesLoaded = s.cranesLoaded ∧ (piecePosted n code failed s).moves = s.moves ∧
    (piecePosted n code failed s).clockMs = s.clockMs := by
  simp only [piecePosted]
  (repeat' split) <;> simp

@[simp] theorem pieceRefusedGroup_keeps (n : Nat) (code : PieceCode) (result : Code) (s : State) :
    (pieceRefusedGroup n code result s).1.pending = s.pending ∧ (pieceRefusedGroup n code result s).1.mem = s.mem ∧
    (pieceRefusedGroup n code result s).1.host = s.host ∧ (pieceRefusedGroup n code result s).1.path = s.path ∧
    (pieceRefusedGroup n code result s).1.dir = s.dir ∧ (pieceRefusedGroup n code result s).1.load = s.load ∧
    (pieceRefusedGroup n code result s).1.beds = s.beds ∧ (pieceRefusedGroup n code result s).1.mixes = s.mixes ∧
    (pieceRefusedGroup n code result s).1.freeCount = s.freeCount ∧
    (pieceRefusedGroup n code result s).1.steam = s.steam ∧
    (pieceRefusedGroup n code result s).1.roster = s.roster ∧
    (pieceRefusedGroup n code result s).1.loops = s.loops ∧
    (pieceRefusedGroup n code result s).1.rosterLoaded = s.rosterLoaded ∧
    (pieceRefusedGroup n code result s).1.cranes = s.cranes ∧
    (pieceRefusedGroup n code result s).1.yardStop = s.yardStop ∧
    (pieceRefusedGroup n code result s).1.cranesLoaded = s.cranesLoaded ∧
    (pieceRefusedGroup n code result s).1.moves = s.moves ∧
    (pieceRefusedGroup n code result s).1.clockMs = s.clockMs := by
  simp only [pieceRefusedGroup]
  simp

@[simp] theorem pieceAcceptedGroup_keeps (n : Nat) (code : PieceCode) (spans : List Span) (s : State) :
    (pieceAcceptedGroup n code spans s).1.pending = s.pending ∧ (pieceAcceptedGroup n code spans s).1.mem = s.mem ∧
    (pieceAcceptedGroup n code spans s).1.host = s.host ∧ (pieceAcceptedGroup n code spans s).1.path = s.path ∧
    (pieceAcceptedGroup n code spans s).1.dir = s.dir ∧ (pieceAcceptedGroup n code spans s).1.load = s.load ∧
    (pieceAcceptedGroup n code spans s).1.beds = s.beds ∧ (pieceAcceptedGroup n code spans s).1.mixes = s.mixes ∧
    (pieceAcceptedGroup n code spans s).1.freeCount = s.freeCount ∧
    (pieceAcceptedGroup n code spans s).1.steam = s.steam ∧
    (pieceAcceptedGroup n code spans s).1.roster = s.roster ∧
    (pieceAcceptedGroup n code spans s).1.loops = s.loops ∧
    (pieceAcceptedGroup n code spans s).1.rosterLoaded = s.rosterLoaded ∧
    (pieceAcceptedGroup n code spans s).1.cranes = s.cranes ∧
    (pieceAcceptedGroup n code spans s).1.yardStop = s.yardStop ∧
    (pieceAcceptedGroup n code spans s).1.cranesLoaded = s.cranesLoaded ∧
    (pieceAcceptedGroup n code spans s).1.moves = s.moves ∧
    (pieceAcceptedGroup n code spans s).1.clockMs = s.clockMs := by
  simp only [pieceAcceptedGroup]
  simp

/-- The top of a stack is taken off it, whatever lies below. -/
theorem takenOff_top (n : Nat) (stack : List Nat) (h : stack.getLast? = some n) : takenOff n stack = stack.dropLast := by
  simp [takenOff, h]

@[simp] theorem scrapSpans_keeps (n : Nat) (code : PieceCode) (p : Piece) (s : State) :
    (scrapSpans n code p s).1.pending = s.pending ∧ (scrapSpans n code p s).1.mem = s.mem ∧
    (scrapSpans n code p s).1.host = s.host ∧ (scrapSpans n code p s).1.path = s.path ∧
    (scrapSpans n code p s).1.dir = s.dir ∧ (scrapSpans n code p s).1.load = s.load ∧
    (scrapSpans n code p s).1.freeCount = s.freeCount ∧ (scrapSpans n code p s).1.steam = s.steam ∧
    (scrapSpans n code p s).1.roster = s.roster ∧ (scrapSpans n code p s).1.loops = s.loops ∧
    (scrapSpans n code p s).1.rosterLoaded = s.rosterLoaded ∧ (scrapSpans n code p s).1.cranes = s.cranes ∧
    (scrapSpans n code p s).1.yardStop = s.yardStop ∧ (scrapSpans n code p s).1.cranesLoaded = s.cranesLoaded ∧
    (scrapSpans n code p s).1.moves = s.moves ∧ (scrapSpans n code p s).1.clockMs = s.clockMs := by
  simp only [scrapSpans]
  (repeat' split) <;> simp

@[simp] theorem pieceResultGroup_keeps (n : Nat) (s : State) :
    (pieceResultGroup n s).1.pending = s.pending ∧ (pieceResultGroup n s).1.mem = s.mem ∧
    (pieceResultGroup n s).1.host = s.host ∧ (pieceResultGroup n s).1.path = s.path ∧
    (pieceResultGroup n s).1.dir = s.dir ∧ (pieceResultGroup n s).1.load = s.load ∧
    (pieceResultGroup n s).1.freeCount = s.freeCount ∧ (pieceResultGroup n s).1.steam = s.steam ∧
    (pieceResultGroup n s).1.roster = s.roster ∧ (pieceResultGroup n s).1.loops = s.loops ∧
    (pieceResultGroup n s).1.rosterLoaded = s.rosterLoaded ∧ (pieceResultGroup n s).1.cranes = s.cranes ∧
    (pieceResultGroup n s).1.yardStop = s.yardStop ∧ (pieceResultGroup n s).1.cranesLoaded = s.cranesLoaded ∧
    (pieceResultGroup n s).1.moves = s.moves ∧ (pieceResultGroup n s).1.clockMs = s.clockMs := by
  simp only [pieceResultGroup]
  (repeat' split) <;> simp

@[simp] theorem pieceResultDone_keeps (n : Nat) (s : State) :
    (pieceResultDone n s).pending = s.pending ∧ (pieceResultDone n s).mem = s.mem ∧
    (pieceResultDone n s).host = s.host ∧ (pieceResultDone n s).path = s.path ∧ (pieceResultDone n s).dir = s.dir ∧
    (pieceResultDone n s).load = s.load ∧ (pieceResultDone n s).beds = s.beds ∧
    (pieceResultDone n s).steam = s.steam ∧ (pieceResultDone n s).roster = s.roster ∧
    (pieceResultDone n s).loops = s.loops ∧ (pieceResultDone n s).rosterLoaded = s.rosterLoaded ∧
    (pieceResultDone n s).cranes = s.cranes ∧ (pieceResultDone n s).yardStop = s.yardStop ∧
    (pieceResultDone n s).cranesLoaded = s.cranesLoaded ∧ (pieceResultDone n s).moves = s.moves ∧
    (pieceResultDone n s).clockMs = s.clockMs := by
  simp only [pieceResultDone]
  (repeat' split) <;> simp

@[simp] theorem yardStep_keeps (temperature : Int) (n : Nat) (s : State) :
    (yardStep temperature n s).pending = s.pending ∧ (yardStep temperature n s).mem = s.mem ∧
    (yardStep temperature n s).host = s.host ∧ (yardStep temperature n s).dir = s.dir ∧
    (yardStep temperature n s).load = s.load ∧ (yardStep temperature n s).beds = s.beds ∧
    (yardStep temperature n s).mixes = s.mixes ∧ (yardStep temperature n s).freeCount = s.freeCount ∧
    (yardStep temperature n s).steam = s.steam ∧ (yardStep temperature n s).roster = s.roster ∧
    (yardStep temperature n s).loops = s.loops ∧ (yardStep temperature n s).rosterLoaded = s.rosterLoaded ∧
    (yardStep temperature n s).cranes = s.cranes ∧ (yardStep temperature n s).yardStop = s.yardStop ∧
    (yardStep temperature n s).cranesLoaded = s.cranesLoaded ∧ (yardStep temperature n s).moves = s.moves ∧
    (yardStep temperature n s).clockMs = s.clockMs := by
  simp only [yardStep]
  (repeat' split) <;> simp

@[simp] theorem yardReady_keeps (n : Nat) (s : State) :
    (yardReady n s).pending = s.pending ∧ (yardReady n s).mem = s.mem ∧ (yardReady n s).host = s.host ∧
    (yardReady n s).path = s.path ∧ (yardReady n s).dir = s.dir ∧ (yardReady n s).load = s.load ∧
    (yardReady n s).beds = s.beds ∧ (yardReady n s).mixes = s.mixes ∧ (yardReady n s).freeCount = s.freeCount ∧
    (yardReady n s).steam = s.steam ∧ (yardReady n s).roster = s.roster ∧ (yardReady n s).loops = s.loops ∧
    (yardReady n s).rosterLoaded = s.rosterLoaded ∧ (yardReady n s).cranes = s.cranes ∧
    (yardReady n s).yardStop = s.yardStop ∧ (yardReady n s).cranesLoaded = s.cranesLoaded ∧
    (yardReady n s).moves = s.moves ∧ (yardReady n s).clockMs = s.clockMs := by
  simp only [yardReady]
  (repeat' split) <;> simp

@[simp] theorem yardMaturityStep_keeps (s : State) :
    (yardMaturityStep s).pending = s.pending ∧ (yardMaturityStep s).mem = s.mem ∧
    (yardMaturityStep s).host = s.host ∧ (yardMaturityStep s).dir = s.dir ∧ (yardMaturityStep s).load = s.load ∧
    (yardMaturityStep s).beds = s.beds ∧ (yardMaturityStep s).mixes = s.mixes ∧
    (yardMaturityStep s).freeCount = s.freeCount ∧ (yardMaturityStep s).steam = s.steam ∧
    (yardMaturityStep s).roster = s.roster ∧ (yardMaturityStep s).loops = s.loops ∧
    (yardMaturityStep s).rosterLoaded = s.rosterLoaded ∧ (yardMaturityStep s).cranes = s.cranes ∧
    (yardMaturityStep s).yardStop = s.yardStop ∧ (yardMaturityStep s).cranesLoaded = s.cranesLoaded ∧
    (yardMaturityStep s).moves = s.moves ∧ (yardMaturityStep s).clockMs = s.clockMs := by
  simp only [yardMaturityStep]
  (repeat' split) <;> simp

@[simp] theorem stockSafe_keeps (s : State) :
    (stockSafe s).pending = s.pending ∧ (stockSafe s).mem = s.mem ∧ (stockSafe s).host = s.host ∧
    (stockSafe s).path = s.path ∧ (stockSafe s).dir = s.dir ∧ (stockSafe s).load = s.load ∧
    (stockSafe s).beds = s.beds ∧ (stockSafe s).mixes = s.mixes ∧ (stockSafe s).freeCount = s.freeCount ∧
    (stockSafe s).steam = s.steam ∧ (stockSafe s).roster = s.roster ∧ (stockSafe s).loops = s.loops ∧
    (stockSafe s).rosterLoaded = s.rosterLoaded ∧ (stockSafe s).cranes = s.cranes ∧
    (stockSafe s).yardStop = s.yardStop ∧ (stockSafe s).cranesLoaded = s.cranesLoaded ∧
    (stockSafe s).moves = s.moves ∧ (stockSafe s).clockMs = s.clockMs := by
  simp only [stockSafe]
  simp

/-! ### The claim test (R120) -/

@[simp] theorem claimTest_nil (len : Nat → Nat) (maxHeight : Nat) (t : Tested) : claimTest len maxHeight t [] = .passes t := rfl

/-- A PICK needs its piece on top, and takes it off. -/
theorem claimTest_pick (len : Nat → Nat) (maxHeight peak : Nat) (stack : List Nat) (c : Claim) (rest : List Claim)
    (h : c.op = .pick) : claimTest len maxHeight ⟨stack, peak⟩ (c :: rest) =
      if stack.head? = some c.piece then claimTest len maxHeight ⟨stack.tail, peak⟩ rest else .fails c := by
  cases stack with
  | nil => simp [claimTest, carryOut, h]
  | cons top below => by_cases e : top = c.piece <;> simp [claimTest, carryOut, h, e]

/-- A PLACE needs room, and a piece on top that is not shorter. -/
theorem claimTest_place (len : Nat → Nat) (maxHeight peak : Nat) (stack : List Nat) (c : Claim) (rest : List Claim)
    (h : c.op = .place) : claimTest len maxHeight ⟨stack, peak⟩ (c :: rest) =
      if stack.length < maxHeight ∧ ∀ top, stack.head? = some top → len c.piece ≤ len top then
        claimTest len maxHeight ⟨c.piece :: stack, max peak (stack.length + 1)⟩ rest
      else .fails c := by
  cases stack with
  | nil => by_cases e : 0 < maxHeight <;> simp [claimTest, carryOut, h, e]
  | cons top below =>
    by_cases e : (below.length + 1 < maxHeight) ∧ len c.piece ≤ len top <;> simp [claimTest, carryOut, h, e]

end Sys2Proof.Machine
end

