-- ==== Sys2Proof/Laws/Runway.lean ====
section
/-! SUPPORT. What each operation of Machine/Runway.lean leaves as it was: the fields of State it never writes; and that a
permit which an evaluation leaves on is allowed and wanted. -/

namespace Sys2Proof.Machine

@[simp] theorem setCab_keeps (c : Fin 2) (x : CabSide) (s : State) :
    (setCab c x s).pending = s.pending ∧ (setCab c x s).mem = s.mem ∧ (setCab c x s).host = s.host ∧
    (setCab c x s).dir = s.dir ∧ (setCab c x s).load = s.load ∧ (setCab c x s).beds = s.beds ∧
    (setCab c x s).mixes = s.mixes ∧ (setCab c x s).freeCount = s.freeCount ∧ (setCab c x s).steam = s.steam ∧
    (setCab c x s).roster = s.roster ∧ (setCab c x s).loops = s.loops ∧
    (setCab c x s).rosterLoaded = s.rosterLoaded ∧ (setCab c x s).stock = s.stock ∧
    (setCab c x s).yardStop = s.yardStop ∧ (setCab c x s).cranesLoaded = s.cranesLoaded ∧
    (setCab c x s).moves = s.moves ∧ (setCab c x s).clockMs = s.clockMs := by
  simp only [setCab]
  simp

@[simp] theorem setMon_keeps (c : Fin 2) (m : Monitor) (s : State) :
    (setMon c m s).pending = s.pending ∧ (setMon c m s).mem = s.mem ∧ (setMon c m s).host = s.host ∧
    (setMon c m s).dir = s.dir ∧ (setMon c m s).load = s.load ∧ (setMon c m s).beds = s.beds ∧
    (setMon c m s).mixes = s.mixes ∧ (setMon c m s).freeCount = s.freeCount ∧ (setMon c m s).steam = s.steam ∧
    (setMon c m s).roster = s.roster ∧ (setMon c m s).loops = s.loops ∧
    (setMon c m s).rosterLoaded = s.rosterLoaded ∧ (setMon c m s).stock = s.stock ∧
    (setMon c m s).yardStop = s.yardStop ∧ (setMon c m s).cranesLoaded = s.cranesLoaded ∧
    (setMon c m s).moves = s.moves ∧ (setMon c m s).clockMs = s.clockMs := by
  simp only [setMon]
  simp

@[simp] theorem evalPermits_keeps (c : Fin 2) (s : State) :
    (evalPermits c s).pending = s.pending ∧ (evalPermits c s).mem = s.mem ∧ (evalPermits c s).host = s.host ∧
    (evalPermits c s).dir = s.dir ∧ (evalPermits c s).load = s.load ∧ (evalPermits c s).beds = s.beds ∧
    (evalPermits c s).mixes = s.mixes ∧ (evalPermits c s).freeCount = s.freeCount ∧
    (evalPermits c s).steam = s.steam ∧ (evalPermits c s).roster = s.roster ∧ (evalPermits c s).loops = s.loops ∧
    (evalPermits c s).rosterLoaded = s.rosterLoaded ∧ (evalPermits c s).stock = s.stock ∧
    (evalPermits c s).yardStop = s.yardStop ∧ (evalPermits c s).cranesLoaded = s.cranesLoaded ∧
    (evalPermits c s).moves = s.moves ∧ (evalPermits c s).clockMs = s.clockMs := by
  simp only [evalPermits]
  simp

/-! ### What an evaluation of the permits leaves on (R141, R142) -/

@[simp] theorem setMon_mon (c : Fin 2) (m : Monitor) (s : State) : (setMon c m s).mon c = m := by
  simp [setMon, State.mon, State.crane, State.setCrane, vector_get_set]

theorem setMon_mon_other (c d : Fin 2) (m : Monitor) (s : State) (h : c ≠ d) : (setMon c m s).mon d = s.mon d := by
  simp [setMon, State.mon, State.crane, State.setCrane, vector_get_set, h]

@[simp] theorem permitOf_setPermit {α : Type} (x : ByPermit α) (p q : Permit) (v : α) :
    permitOf (setPermit x p v) q = if q = p then v else permitOf x q := by
  cases p <;> cases q <;> rfl

/-- The monitor that an evaluation leaves. -/
def evaluated (allowed : Permit → Bool) (m : Monitor) : Monitor :=
  allPermits.foldl (fun m p => turnOn allowed p m) (allPermits.foldl (fun m p => turnOff allowed p m) m)

@[simp] theorem evalPermits_mon (c : Fin 2) (s : State) :
    (evalPermits c s).mon c = evaluated (fun p => s.permitsAllowed c && s.permitWanted c p) (s.mon c) := by
  simp [evalPermits, evaluated]

/-- Turning permits off and on touches the permits and their two timers alone. -/
def SamePlace (m n : Monitor) : Prop :=
  n = { m with permits := n.permits, blockTimers := n.blockTimers, offTimers := n.offTimers }

theorem turnOff_samePlace (allowed : Permit → Bool) (p : Permit) (m : Monitor) : SamePlace m (turnOff allowed p m) := by
  rw [turnOff]; split <;> rfl

theorem turnOn_samePlace (allowed : Permit → Bool) (p : Permit) (m : Monitor) : SamePlace m (turnOn allowed p m) := by
  rw [turnOn]; split <;> rfl

theorem SamePlace.trans {a b c : Monitor} (h : SamePlace a b) (k : SamePlace b c) : SamePlace a c := by
  rw [SamePlace] at *
  rw [k, h]

theorem foldl_samePlace (f : Monitor → Permit → Monitor) (keeps : ∀ m p, SamePlace m (f m p)) (ps : List Permit) (m : Monitor) :
    SamePlace m (ps.foldl f m) := by
  induction ps generalizing m with
  | nil => rfl
  | cons p ps ih => exact (keeps m p).trans (ih (f m p))

theorem evaluated_samePlace (allowed : Permit → Bool) (m : Monitor) : SamePlace m (evaluated allowed m) :=
  (foldl_samePlace _ (fun m p => turnOff_samePlace allowed p m) allPermits m).trans
    (foldl_samePlace _ (fun m p => turnOn_samePlace allowed p m) allPermits _)

/-- A permit that an evaluation leaves on is allowed and wanted. -/
theorem evaluated_on (allowed : Permit → Bool) (m : Monitor) (q : Permit)
    (h : permitOf (evaluated allowed m).permits q = true) : allowed q = true := by
  have off : ∀ (p q : Permit) (m : Monitor), permitOf (turnOff allowed p m).permits q =
      (permitOf m.permits q && (decide (q ≠ p) || allowed p)) := by
    intro p q m
    rw [turnOff]
    split <;> by_cases e : q = p <;> simp_all
  have on : ∀ (p q : Permit) (m : Monitor), permitOf (turnOn allowed p m).permits q = true →
      permitOf m.permits q = true ∨ (q = p ∧ allowed p = true) := by
    intro p q m
    rw [turnOn]
    split <;> by_cases e : q = p <;> simp_all
  have last : ∀ m : Monitor, permitOf (allPermits.foldl (fun m p => turnOff allowed p m) m).permits q = true → allowed q = true := by
    intro m
    cases q <;> simp [allPermits, off]
  have first : ∀ (ps : List Permit) (m : Monitor), (permitOf m.permits q = true → allowed q = true) →
      permitOf (ps.foldl (fun m p => turnOn allowed p m) m).permits q = true → allowed q = true := by
    intro ps
    induction ps with
    | nil => intro m base k; exact base k
    | cons p ps ih =>
      intro m base k
      exact ih _ (fun e => (on p q m e).elim base (fun x => x.1 ▸ x.2)) k
  exact first allPermits _ (last m) h

/-- An evaluation changes neither whether permits are allowed nor which are wanted, so what it leaves on is both. -/
theorem evalPermits_on (c : Fin 2) (s : State) (p : Permit) (h : permitOf ((evalPermits c s).mon c).permits p = true) :
    (evalPermits c s).permitsAllowed c = true ∧ (evalPermits c s).permitWanted c p = true := by
  rw [evalPermits_mon] at h
  have both := evaluated_on _ _ _ h
  have same := evaluated_samePlace (fun p => s.permitsAllowed c && s.permitWanted c p) (s.mon c)
  rw [← evalPermits_mon] at same
  simp only [Bool.and_eq_true] at both
  rw [SamePlace] at same
  refine ⟨?_, ?_⟩
  · rw [← both.1]
    simp only [State.permitsAllowed, State.running]
    rw [same]
    simp
  · rw [← both.2]
    simp only [State.permitWanted]
    rw [same]

end Sys2Proof.Machine
end

