-- ==== Sys2Proof/Laws/Spans.lean ====
section
/-! SUPPORT. What each operation of Machine/Spans.lean leaves as it was: the fields of State it never writes. -/

namespace Sys2Proof.Machine

@[simp] theorem setMove_keeps (i : Fin 16) (m : Move) (s : State) :
    (setMove i m s).pending = s.pending ∧ (setMove i m s).mem = s.mem ∧ (setMove i m s).host = s.host ∧
    (setMove i m s).dir = s.dir ∧ (setMove i m s).load = s.load ∧ (setMove i m s).beds = s.beds ∧
    (setMove i m s).mixes = s.mixes ∧ (setMove i m s).freeCount = s.freeCount ∧ (setMove i m s).steam = s.steam ∧
    (setMove i m s).roster = s.roster ∧ (setMove i m s).loops = s.loops ∧
    (setMove i m s).rosterLoaded = s.rosterLoaded ∧ (setMove i m s).stock = s.stock ∧
    (setMove i m s).cranes = s.cranes ∧ (setMove i m s).yardStop = s.yardStop ∧
    (setMove i m s).cranesLoaded = s.cranesLoaded ∧ (setMove i m s).clockMs = s.clockMs := by
  simp only [setMove]
  simp

@[simp] theorem postMove_keeps (kind : NoticeKind) (i : Fin 16) (detail : Word) (s : State) :
    (postMove kind i detail s).pending = s.pending ∧ (postMove kind i detail s).mem = s.mem ∧
    (postMove kind i detail s).host = s.host ∧ (postMove kind i detail s).path = s.path ∧
    (postMove kind i detail s).dir = s.dir ∧ (postMove kind i detail s).load = s.load ∧
    (postMove kind i detail s).beds = s.beds ∧ (postMove kind i detail s).mixes = s.mixes ∧
    (postMove kind i detail s).freeCount = s.freeCount ∧ (postMove kind i detail s).steam = s.steam ∧
    (postMove kind i detail s).roster = s.roster ∧ (postMove kind i detail s).loops = s.loops ∧
    (postMove kind i detail s).rosterLoaded = s.rosterLoaded ∧ (postMove kind i detail s).stock = s.stock ∧
    (postMove kind i detail s).cranes = s.cranes ∧ (postMove kind i detail s).yardStop = s.yardStop ∧
    (postMove kind i detail s).cranesLoaded = s.cranesLoaded ∧ (postMove kind i detail s).moves = s.moves ∧
    (postMove kind i detail s).clockMs = s.clockMs := by
  simp only [postMove]
  simp

@[simp] theorem testRunway_keeps (s : State) :
    (testRunway s).pending = s.pending ∧ (testRunway s).mem = s.mem ∧ (testRunway s).host = s.host ∧
    (testRunway s).dir = s.dir ∧ (testRunway s).load = s.load ∧ (testRunway s).beds = s.beds ∧
    (testRunway s).mixes = s.mixes ∧ (testRunway s).freeCount = s.freeCount ∧ (testRunway s).steam = s.steam ∧
    (testRunway s).roster = s.roster ∧ (testRunway s).loops = s.loops ∧
    (testRunway s).rosterLoaded = s.rosterLoaded ∧ (testRunway s).stock = s.stock ∧
    (testRunway s).yardStop = s.yardStop ∧ (testRunway s).cranesLoaded = s.cranesLoaded ∧
    (testRunway s).moves = s.moves ∧ (testRunway s).clockMs = s.clockMs := by
  simp only [testRunway]
  (repeat' split) <;> simp

@[simp] theorem shiftCab_keeps (c : Fin 2) (s : State) :
    (shiftCab c s).pending = s.pending ∧ (shiftCab c s).mem = s.mem ∧ (shiftCab c s).host = s.host ∧
    (shiftCab c s).dir = s.dir ∧ (shiftCab c s).load = s.load ∧ (shiftCab c s).beds = s.beds ∧
    (shiftCab c s).mixes = s.mixes ∧ (shiftCab c s).freeCount = s.freeCount ∧ (shiftCab c s).steam = s.steam ∧
    (shiftCab c s).roster = s.roster ∧ (shiftCab c s).loops = s.loops ∧
    (shiftCab c s).rosterLoaded = s.rosterLoaded ∧ (shiftCab c s).stock = s.stock ∧
    (shiftCab c s).yardStop = s.yardStop ∧ (shiftCab c s).cranesLoaded = s.cranesLoaded ∧
    (shiftCab c s).moves = s.moves ∧ (shiftCab c s).clockMs = s.clockMs := by
  simp only [shiftCab]
  (repeat' split) <;> simp

@[simp] theorem placeInstruction_keeps (c : Fin 2) (ins : Instruction) (s : State) :
    (placeInstruction c ins s).pending = s.pending ∧ (placeInstruction c ins s).mem = s.mem ∧
    (placeInstruction c ins s).host = s.host ∧ (placeInstruction c ins s).dir = s.dir ∧
    (placeInstruction c ins s).load = s.load ∧ (placeInstruction c ins s).beds = s.beds ∧
    (placeInstruction c ins s).mixes = s.mixes ∧ (placeInstruction c ins s).freeCount = s.freeCount ∧
    (placeInstruction c ins s).steam = s.steam ∧ (placeInstruction c ins s).roster = s.roster ∧
    (placeInstruction c ins s).loops = s.loops ∧ (placeInstruction c ins s).rosterLoaded = s.rosterLoaded ∧
    (placeInstruction c ins s).stock = s.stock ∧ (placeInstruction c ins s).yardStop = s.yardStop ∧
    (placeInstruction c ins s).cranesLoaded = s.cranesLoaded ∧ (placeInstruction c ins s).moves = s.moves ∧
    (placeInstruction c ins s).clockMs = s.clockMs := by
  simp only [placeInstruction]
  simp

@[simp] theorem setPhase_keeps (c : Fin 2) (s : State) :
    (setPhase c s).pending = s.pending ∧ (setPhase c s).mem = s.mem ∧ (setPhase c s).host = s.host ∧
    (setPhase c s).dir = s.dir ∧ (setPhase c s).load = s.load ∧ (setPhase c s).beds = s.beds ∧
    (setPhase c s).mixes = s.mixes ∧ (setPhase c s).freeCount = s.freeCount ∧ (setPhase c s).steam = s.steam ∧
    (setPhase c s).roster = s.roster ∧ (setPhase c s).loops = s.loops ∧
    (setPhase c s).rosterLoaded = s.rosterLoaded ∧ (setPhase c s).stock = s.stock ∧
    (setPhase c s).yardStop = s.yardStop ∧ (setPhase c s).cranesLoaded = s.cranesLoaded ∧
    (setPhase c s).moves = s.moves ∧ (setPhase c s).clockMs = s.clockMs := by
  simp only [setPhase]
  simp

@[simp] theorem startTravel_keeps (c : Fin 2) (i : Fin 16) (s : State) :
    (startTravel c i s).pending = s.pending ∧ (startTravel c i s).mem = s.mem ∧ (startTravel c i s).host = s.host ∧
    (startTravel c i s).dir = s.dir ∧ (startTravel c i s).load = s.load ∧ (startTravel c i s).beds = s.beds ∧
    (startTravel c i s).mixes = s.mixes ∧ (startTravel c i s).freeCount = s.freeCount ∧
    (startTravel c i s).steam = s.steam ∧ (startTravel c i s).roster = s.roster ∧
    (startTravel c i s).loops = s.loops ∧ (startTravel c i s).rosterLoaded = s.rosterLoaded ∧
    (startTravel c i s).stock = s.stock ∧ (startTravel c i s).yardStop = s.yardStop ∧
    (startTravel c i s).cranesLoaded = s.cranesLoaded ∧ (startTravel c i s).clockMs = s.clockMs := by
  simp only [startTravel]
  (repeat' split) <;> simp

@[simp] theorem grantTaken_keeps (c : Fin 2) (s : State) :
    (grantTaken c s).pending = s.pending ∧ (grantTaken c s).mem = s.mem ∧ (grantTaken c s).host = s.host ∧
    (grantTaken c s).dir = s.dir ∧ (grantTaken c s).load = s.load ∧ (grantTaken c s).beds = s.beds ∧
    (grantTaken c s).mixes = s.mixes ∧ (grantTaken c s).freeCount = s.freeCount ∧ (grantTaken c s).steam = s.steam ∧
    (grantTaken c s).roster = s.roster ∧ (grantTaken c s).loops = s.loops ∧
    (grantTaken c s).rosterLoaded = s.rosterLoaded ∧ (grantTaken c s).stock = s.stock ∧
    (grantTaken c s).yardStop = s.yardStop ∧ (grantTaken c s).cranesLoaded = s.cranesLoaded ∧
    (grantTaken c s).clockMs = s.clockMs := by
  simp only [grantTaken]
  (repeat' split) <;> simp

@[simp] theorem examineRequest_keeps (c : Fin 2) (s : State) :
    (examineRequest c s).pending = s.pending ∧ (examineRequest c s).mem = s.mem ∧
    (examineRequest c s).host = s.host ∧ (examineRequest c s).dir = s.dir ∧ (examineRequest c s).load = s.load ∧
    (examineRequest c s).beds = s.beds ∧ (examineRequest c s).mixes = s.mixes ∧
    (examineRequest c s).freeCount = s.freeCount ∧ (examineRequest c s).steam = s.steam ∧
    (examineRequest c s).roster = s.roster ∧ (examineRequest c s).loops = s.loops ∧
    (examineRequest c s).rosterLoaded = s.rosterLoaded ∧ (examineRequest c s).stock = s.stock ∧
    (examineRequest c s).yardStop = s.yardStop ∧ (examineRequest c s).cranesLoaded = s.cranesLoaded ∧
    (examineRequest c s).clockMs = s.clockMs := by
  simp only [examineRequest]
  (repeat' split) <;> simp

@[simp] theorem takeFirst_keeps (c : Fin 2) (s : State) :
    (takeFirst c s).pending = s.pending ∧ (takeFirst c s).mem = s.mem ∧ (takeFirst c s).host = s.host ∧
    (takeFirst c s).dir = s.dir ∧ (takeFirst c s).load = s.load ∧ (takeFirst c s).beds = s.beds ∧
    (takeFirst c s).mixes = s.mixes ∧ (takeFirst c s).freeCount = s.freeCount ∧ (takeFirst c s).steam = s.steam ∧
    (takeFirst c s).roster = s.roster ∧ (takeFirst c s).loops = s.loops ∧
    (takeFirst c s).rosterLoaded = s.rosterLoaded ∧ (takeFirst c s).stock = s.stock ∧
    (takeFirst c s).yardStop = s.yardStop ∧ (takeFirst c s).cranesLoaded = s.cranesLoaded ∧
    (takeFirst c s).moves = s.moves ∧ (takeFirst c s).clockMs = s.clockMs := by
  simp only [takeFirst]
  (repeat' split) <;> simp

@[simp] theorem examineCrane_keeps (c : Fin 2) (s : State) :
    (examineCrane c s).pending = s.pending ∧ (examineCrane c s).mem = s.mem ∧ (examineCrane c s).host = s.host ∧
    (examineCrane c s).dir = s.dir ∧ (examineCrane c s).load = s.load ∧ (examineCrane c s).beds = s.beds ∧
    (examineCrane c s).mixes = s.mixes ∧ (examineCrane c s).freeCount = s.freeCount ∧
    (examineCrane c s).steam = s.steam ∧ (examineCrane c s).roster = s.roster ∧ (examineCrane c s).loops = s.loops ∧
    (examineCrane c s).rosterLoaded = s.rosterLoaded ∧ (examineCrane c s).stock = s.stock ∧
    (examineCrane c s).yardStop = s.yardStop ∧ (examineCrane c s).cranesLoaded = s.cranesLoaded ∧
    (examineCrane c s).clockMs = s.clockMs := by
  simp only [examineCrane]
  simp

@[simp] theorem tellPhase_keeps (c : Fin 2) (s : State) :
    (tellPhase c s).pending = s.pending ∧ (tellPhase c s).mem = s.mem ∧ (tellPhase c s).host = s.host ∧
    (tellPhase c s).dir = s.dir ∧ (tellPhase c s).load = s.load ∧ (tellPhase c s).beds = s.beds ∧
    (tellPhase c s).mixes = s.mixes ∧ (tellPhase c s).freeCount = s.freeCount ∧ (tellPhase c s).steam = s.steam ∧
    (tellPhase c s).roster = s.roster ∧ (tellPhase c s).loops = s.loops ∧
    (tellPhase c s).rosterLoaded = s.rosterLoaded ∧ (tellPhase c s).stock = s.stock ∧
    (tellPhase c s).yardStop = s.yardStop ∧ (tellPhase c s).cranesLoaded = s.cranesLoaded ∧
    (tellPhase c s).clockMs = s.clockMs := by
  simp only [tellPhase]
  (repeat' split) <;> simp

@[simp] theorem requestGrant_keeps (c : Fin 2) (targets : List Nat) (s : State) :
    (requestGrant c targets s).pending = s.pending ∧ (requestGrant c targets s).mem = s.mem ∧
    (requestGrant c targets s).host = s.host ∧ (requestGrant c targets s).dir = s.dir ∧
    (requestGrant c targets s).load = s.load ∧ (requestGrant c targets s).beds = s.beds ∧
    (requestGrant c targets s).mixes = s.mixes ∧ (requestGrant c targets s).freeCount = s.freeCount ∧
    (requestGrant c targets s).steam = s.steam ∧ (requestGrant c targets s).roster = s.roster ∧
    (requestGrant c targets s).loops = s.loops ∧ (requestGrant c targets s).rosterLoaded = s.rosterLoaded ∧
    (requestGrant c targets s).stock = s.stock ∧ (requestGrant c targets s).yardStop = s.yardStop ∧
    (requestGrant c targets s).cranesLoaded = s.cranesLoaded ∧ (requestGrant c targets s).clockMs = s.clockMs := by
  simp only [requestGrant]
  simp

@[simp] theorem withdrawRequest_keeps (c : Fin 2) (s : State) :
    (withdrawRequest c s).pending = s.pending ∧ (withdrawRequest c s).mem = s.mem ∧
    (withdrawRequest c s).host = s.host ∧ (withdrawRequest c s).dir = s.dir ∧ (withdrawRequest c s).load = s.load ∧
    (withdrawRequest c s).beds = s.beds ∧ (withdrawRequest c s).mixes = s.mixes ∧
    (withdrawRequest c s).freeCount = s.freeCount ∧ (withdrawRequest c s).steam = s.steam ∧
    (withdrawRequest c s).roster = s.roster ∧ (withdrawRequest c s).loops = s.loops ∧
    (withdrawRequest c s).rosterLoaded = s.rosterLoaded ∧ (withdrawRequest c s).stock = s.stock ∧
    (withdrawRequest c s).yardStop = s.yardStop ∧ (withdrawRequest c s).cranesLoaded = s.cranesLoaded ∧
    (withdrawRequest c s).moves = s.moves ∧ (withdrawRequest c s).clockMs = s.clockMs := by
  simp only [withdrawRequest]
  simp

@[simp] theorem suspendMove_keeps (c : Fin 2) (cause : Code) (s : State) :
    (suspendMove c cause s).pending = s.pending ∧ (suspendMove c cause s).mem = s.mem ∧
    (suspendMove c cause s).host = s.host ∧ (suspendMove c cause s).dir = s.dir ∧
    (suspendMove c cause s).load = s.load ∧ (suspendMove c cause s).beds = s.beds ∧
    (suspendMove c cause s).mixes = s.mixes ∧ (suspendMove c cause s).freeCount = s.freeCount ∧
    (suspendMove c cause s).steam = s.steam ∧ (suspendMove c cause s).roster = s.roster ∧
    (suspendMove c cause s).loops = s.loops ∧ (suspendMove c cause s).rosterLoaded = s.rosterLoaded ∧
    (suspendMove c cause s).stock = s.stock ∧ (suspendMove c cause s).yardStop = s.yardStop ∧
    (suspendMove c cause s).cranesLoaded = s.cranesLoaded ∧ (suspendMove c cause s).clockMs = s.clockMs := by
  simp only [suspendMove]
  (repeat' split) <;> simp

@[simp] theorem craneFault_keeps (c : Fin 2) (kind : FaultKind) (s : State) :
    (craneFault c kind s).pending = s.pending ∧ (craneFault c kind s).mem = s.mem ∧
    (craneFault c kind s).host = s.host ∧ (craneFault c kind s).dir = s.dir ∧ (craneFault c kind s).load = s.load ∧
    (craneFault c kind s).beds = s.beds ∧ (craneFault c kind s).mixes = s.mixes ∧
    (craneFault c kind s).freeCount = s.freeCount ∧ (craneFault c kind s).steam = s.steam ∧
    (craneFault c kind s).roster = s.roster ∧ (craneFault c kind s).loops = s.loops ∧
    (craneFault c kind s).rosterLoaded = s.rosterLoaded ∧ (craneFault c kind s).stock = s.stock ∧
    (craneFault c kind s).yardStop = s.yardStop ∧ (craneFault c kind s).cranesLoaded = s.cranesLoaded ∧
    (craneFault c kind s).clockMs = s.clockMs := by
  simp only [craneFault]
  (repeat' split) <;> simp

@[simp] theorem overrunTest_keeps (c : Fin 2) (s : State) :
    (overrunTest c s).pending = s.pending ∧ (overrunTest c s).mem = s.mem ∧ (overrunTest c s).host = s.host ∧
    (overrunTest c s).dir = s.dir ∧ (overrunTest c s).load = s.load ∧ (overrunTest c s).beds = s.beds ∧
    (overrunTest c s).mixes = s.mixes ∧ (overrunTest c s).freeCount = s.freeCount ∧
    (overrunTest c s).steam = s.steam ∧ (overrunTest c s).roster = s.roster ∧ (overrunTest c s).loops = s.loops ∧
    (overrunTest c s).rosterLoaded = s.rosterLoaded ∧ (overrunTest c s).stock = s.stock ∧
    (overrunTest c s).yardStop = s.yardStop ∧ (overrunTest c s).cranesLoaded = s.cranesLoaded ∧
    (overrunTest c s).clockMs = s.clockMs := by
  simp only [overrunTest]
  (repeat' split) <;> simp

@[simp] theorem positionChanged_keeps (c : Fin 2) (s : State) :
    (positionChanged c s).pending = s.pending ∧ (positionChanged c s).mem = s.mem ∧
    (positionChanged c s).host = s.host ∧ (positionChanged c s).dir = s.dir ∧ (positionChanged c s).load = s.load ∧
    (positionChanged c s).beds = s.beds ∧ (positionChanged c s).mixes = s.mixes ∧
    (positionChanged c s).freeCount = s.freeCount ∧ (positionChanged c s).steam = s.steam ∧
    (positionChanged c s).roster = s.roster ∧ (positionChanged c s).loops = s.loops ∧
    (positionChanged c s).rosterLoaded = s.rosterLoaded ∧ (positionChanged c s).stock = s.stock ∧
    (positionChanged c s).yardStop = s.yardStop ∧ (positionChanged c s).cranesLoaded = s.cranesLoaded ∧
    (positionChanged c s).clockMs = s.clockMs := by
  simp only [positionChanged]
  simp

@[simp] theorem updatePosition_keeps (c : Fin 2) (s : State) :
    (updatePosition c s).pending = s.pending ∧ (updatePosition c s).mem = s.mem ∧
    (updatePosition c s).host = s.host ∧ (updatePosition c s).dir = s.dir ∧ (updatePosition c s).load = s.load ∧
    (updatePosition c s).beds = s.beds ∧ (updatePosition c s).mixes = s.mixes ∧
    (updatePosition c s).freeCount = s.freeCount ∧ (updatePosition c s).steam = s.steam ∧
    (updatePosition c s).roster = s.roster ∧ (updatePosition c s).loops = s.loops ∧
    (updatePosition c s).rosterLoaded = s.rosterLoaded ∧ (updatePosition c s).stock = s.stock ∧
    (updatePosition c s).yardStop = s.yardStop ∧ (updatePosition c s).cranesLoaded = s.cranesLoaded ∧
    (updatePosition c s).clockMs = s.clockMs := by
  simp only [updatePosition]
  (repeat' split) <;> simp

@[simp] theorem encoderFault_keeps (c : Fin 2) (s : State) :
    (encoderFault c s).pending = s.pending ∧ (encoderFault c s).mem = s.mem ∧ (encoderFault c s).host = s.host ∧
    (encoderFault c s).dir = s.dir ∧ (encoderFault c s).load = s.load ∧ (encoderFault c s).beds = s.beds ∧
    (encoderFault c s).mixes = s.mixes ∧ (encoderFault c s).freeCount = s.freeCount ∧
    (encoderFault c s).steam = s.steam ∧ (encoderFault c s).roster = s.roster ∧ (encoderFault c s).loops = s.loops ∧
    (encoderFault c s).rosterLoaded = s.rosterLoaded ∧ (encoderFault c s).stock = s.stock ∧
    (encoderFault c s).yardStop = s.yardStop ∧ (encoderFault c s).cranesLoaded = s.cranesLoaded ∧
    (encoderFault c s).clockMs = s.clockMs := by
  simp only [encoderFault]
  simp

@[simp] theorem countEdge_keeps (c : Fin 2) (amount : Int) (channels : Bool × Bool) (s : State) :
    (countEdge c amount channels s).pending = s.pending ∧ (countEdge c amount channels s).mem = s.mem ∧
    (countEdge c amount channels s).host = s.host ∧ (countEdge c amount channels s).dir = s.dir ∧
    (countEdge c amount channels s).load = s.load ∧ (countEdge c amount channels s).beds = s.beds ∧
    (countEdge c amount channels s).mixes = s.mixes ∧ (countEdge c amount channels s).freeCount = s.freeCount ∧
    (countEdge c amount channels s).steam = s.steam ∧ (countEdge c amount channels s).roster = s.roster ∧
    (countEdge c amount channels s).loops = s.loops ∧
    (countEdge c amount channels s).rosterLoaded = s.rosterLoaded ∧
    (countEdge c amount channels s).stock = s.stock ∧ (countEdge c amount channels s).yardStop = s.yardStop ∧
    (countEdge c amount channels s).cranesLoaded = s.cranesLoaded ∧
    (countEdge c amount channels s).clockMs = s.clockMs := by
  simp only [countEdge]
  (repeat' split) <;> simp

@[simp] theorem encoderStep_keeps (c : Fin 2) (dir : Direction) (s : State) :
    (encoderStep c dir s).pending = s.pending ∧ (encoderStep c dir s).mem = s.mem ∧
    (encoderStep c dir s).host = s.host ∧ (encoderStep c dir s).dir = s.dir ∧ (encoderStep c dir s).load = s.load ∧
    (encoderStep c dir s).beds = s.beds ∧ (encoderStep c dir s).mixes = s.mixes ∧
    (encoderStep c dir s).freeCount = s.freeCount ∧ (encoderStep c dir s).steam = s.steam ∧
    (encoderStep c dir s).roster = s.roster ∧ (encoderStep c dir s).loops = s.loops ∧
    (encoderStep c dir s).rosterLoaded = s.rosterLoaded ∧ (encoderStep c dir s).stock = s.stock ∧
    (encoderStep c dir s).yardStop = s.yardStop ∧ (encoderStep c dir s).cranesLoaded = s.cranesLoaded ∧
    (encoderStep c dir s).clockMs = s.clockMs := by
  simp only [encoderStep]
  (repeat' split) <;> simp

@[simp] theorem illegalTransition_keeps (c : Fin 2) (s : State) :
    (illegalTransition c s).pending = s.pending ∧ (illegalTransition c s).mem = s.mem ∧
    (illegalTransition c s).host = s.host ∧ (illegalTransition c s).dir = s.dir ∧
    (illegalTransition c s).load = s.load ∧ (illegalTransition c s).beds = s.beds ∧
    (illegalTransition c s).mixes = s.mixes ∧ (illegalTransition c s).freeCount = s.freeCount ∧
    (illegalTransition c s).steam = s.steam ∧ (illegalTransition c s).roster = s.roster ∧
    (illegalTransition c s).loops = s.loops ∧ (illegalTransition c s).rosterLoaded = s.rosterLoaded ∧
    (illegalTransition c s).stock = s.stock ∧ (illegalTransition c s).yardStop = s.yardStop ∧
    (illegalTransition c s).cranesLoaded = s.cranesLoaded ∧ (illegalTransition c s).clockMs = s.clockMs := by
  simp only [illegalTransition]
  (repeat' split) <;> simp

@[simp] theorem indexMarker_keeps (c : Fin 2) (s : State) :
    (indexMarker c s).pending = s.pending ∧ (indexMarker c s).mem = s.mem ∧ (indexMarker c s).host = s.host ∧
    (indexMarker c s).dir = s.dir ∧ (indexMarker c s).load = s.load ∧ (indexMarker c s).beds = s.beds ∧
    (indexMarker c s).mixes = s.mixes ∧ (indexMarker c s).freeCount = s.freeCount ∧
    (indexMarker c s).steam = s.steam ∧ (indexMarker c s).roster = s.roster ∧ (indexMarker c s).loops = s.loops ∧
    (indexMarker c s).rosterLoaded = s.rosterLoaded ∧ (indexMarker c s).stock = s.stock ∧
    (indexMarker c s).yardStop = s.yardStop ∧ (indexMarker c s).cranesLoaded = s.cranesLoaded ∧
    (indexMarker c s).moves = s.moves ∧ (indexMarker c s).clockMs = s.clockMs := by
  simp only [indexMarker]
  (repeat' split) <;> simp

@[simp] theorem judgeFeedback_keeps (c : Fin 2) (s : State) :
    (judgeFeedback c s).pending = s.pending ∧ (judgeFeedback c s).mem = s.mem ∧ (judgeFeedback c s).host = s.host ∧
    (judgeFeedback c s).dir = s.dir ∧ (judgeFeedback c s).load = s.load ∧ (judgeFeedback c s).beds = s.beds ∧
    (judgeFeedback c s).mixes = s.mixes ∧ (judgeFeedback c s).freeCount = s.freeCount ∧
    (judgeFeedback c s).steam = s.steam ∧ (judgeFeedback c s).roster = s.roster ∧
    (judgeFeedback c s).loops = s.loops ∧ (judgeFeedback c s).rosterLoaded = s.rosterLoaded ∧
    (judgeFeedback c s).stock = s.stock ∧ (judgeFeedback c s).yardStop = s.yardStop ∧
    (judgeFeedback c s).cranesLoaded = s.cranesLoaded ∧ (judgeFeedback c s).clockMs = s.clockMs := by
  simp only [judgeFeedback]
  (repeat' split) <;> simp

@[simp] theorem feedbackChange_keeps (c : Fin 2) (p : Permit) (active : Bool) (s : State) :
    (feedbackChange c p active s).pending = s.pending ∧ (feedbackChange c p active s).mem = s.mem ∧
    (feedbackChange c p active s).host = s.host ∧ (feedbackChange c p active s).dir = s.dir ∧
    (feedbackChange c p active s).load = s.load ∧ (feedbackChange c p active s).beds = s.beds ∧
    (feedbackChange c p active s).mixes = s.mixes ∧ (feedbackChange c p active s).freeCount = s.freeCount ∧
    (feedbackChange c p active s).steam = s.steam ∧ (feedbackChange c p active s).roster = s.roster ∧
    (feedbackChange c p active s).loops = s.loops ∧ (feedbackChange c p active s).rosterLoaded = s.rosterLoaded ∧
    (feedbackChange c p active s).stock = s.stock ∧ (feedbackChange c p active s).yardStop = s.yardStop ∧
    (feedbackChange c p active s).cranesLoaded = s.cranesLoaded ∧ (feedbackChange c p active s).clockMs = s.clockMs := by
  simp only [feedbackChange]
  simp

@[simp] theorem offTimerExpiry_keeps (c : Fin 2) (p : Permit) (s : State) :
    (offTimerExpiry c p s).pending = s.pending ∧ (offTimerExpiry c p s).mem = s.mem ∧
    (offTimerExpiry c p s).host = s.host ∧ (offTimerExpiry c p s).dir = s.dir ∧
    (offTimerExpiry c p s).load = s.load ∧ (offTimerExpiry c p s).beds = s.beds ∧
    (offTimerExpiry c p s).mixes = s.mixes ∧ (offTimerExpiry c p s).freeCount = s.freeCount ∧
    (offTimerExpiry c p s).steam = s.steam ∧ (offTimerExpiry c p s).roster = s.roster ∧
    (offTimerExpiry c p s).loops = s.loops ∧ (offTimerExpiry c p s).rosterLoaded = s.rosterLoaded ∧
    (offTimerExpiry c p s).stock = s.stock ∧ (offTimerExpiry c p s).yardStop = s.yardStop ∧
    (offTimerExpiry c p s).cranesLoaded = s.cranesLoaded ∧ (offTimerExpiry c p s).clockMs = s.clockMs := by
  simp only [offTimerExpiry]
  (repeat' split) <;> simp

@[simp] theorem judgeStop_keeps (c : Fin 2) (s : State) :
    (judgeStop c s).pending = s.pending ∧ (judgeStop c s).mem = s.mem ∧ (judgeStop c s).host = s.host ∧
    (judgeStop c s).dir = s.dir ∧ (judgeStop c s).load = s.load ∧ (judgeStop c s).beds = s.beds ∧
    (judgeStop c s).mixes = s.mixes ∧ (judgeStop c s).freeCount = s.freeCount ∧ (judgeStop c s).steam = s.steam ∧
    (judgeStop c s).roster = s.roster ∧ (judgeStop c s).loops = s.loops ∧
    (judgeStop c s).rosterLoaded = s.rosterLoaded ∧ (judgeStop c s).stock = s.stock ∧
    (judgeStop c s).yardStop = s.yardStop ∧ (judgeStop c s).cranesLoaded = s.cranesLoaded ∧
    (judgeStop c s).clockMs = s.clockMs := by
  simp only [judgeStop]
  (repeat' split) <;> simp

@[simp] theorem cabStopChange_keeps (c : Fin 2) (active : Bool) (s : State) :
    (cabStopChange c active s).pending = s.pending ∧ (cabStopChange c active s).mem = s.mem ∧
    (cabStopChange c active s).host = s.host ∧ (cabStopChange c active s).dir = s.dir ∧
    (cabStopChange c active s).load = s.load ∧ (cabStopChange c active s).beds = s.beds ∧
    (cabStopChange c active s).mixes = s.mixes ∧ (cabStopChange c active s).freeCount = s.freeCount ∧
    (cabStopChange c active s).steam = s.steam ∧ (cabStopChange c active s).roster = s.roster ∧
    (cabStopChange c active s).loops = s.loops ∧ (cabStopChange c active s).rosterLoaded = s.rosterLoaded ∧
    (cabStopChange c active s).stock = s.stock ∧ (cabStopChange c active s).yardStop = s.yardStop ∧
    (cabStopChange c active s).cranesLoaded = s.cranesLoaded ∧ (cabStopChange c active s).clockMs = s.clockMs := by
  simp only [cabStopChange]
  simp

@[simp] theorem yardStopChange_keeps (active : Bool) (s : State) :
    (yardStopChange active s).pending = s.pending ∧ (yardStopChange active s).mem = s.mem ∧
    (yardStopChange active s).host = s.host ∧ (yardStopChange active s).dir = s.dir ∧
    (yardStopChange active s).load = s.load ∧ (yardStopChange active s).beds = s.beds ∧
    (yardStopChange active s).mixes = s.mixes ∧ (yardStopChange active s).freeCount = s.freeCount ∧
    (yardStopChange active s).steam = s.steam ∧ (yardStopChange active s).roster = s.roster ∧
    (yardStopChange active s).loops = s.loops ∧ (yardStopChange active s).rosterLoaded = s.rosterLoaded ∧
    (yardStopChange active s).stock = s.stock ∧ (yardStopChange active s).cranesLoaded = s.cranesLoaded ∧
    (yardStopChange active s).clockMs = s.clockMs := by
  simp only [yardStopChange]
  simp

@[simp] theorem blockTimerExpiry_keeps (c : Fin 2) (p : Permit) (s : State) :
    (blockTimerExpiry c p s).pending = s.pending ∧ (blockTimerExpiry c p s).mem = s.mem ∧
    (blockTimerExpiry c p s).host = s.host ∧ (blockTimerExpiry c p s).dir = s.dir ∧
    (blockTimerExpiry c p s).load = s.load ∧ (blockTimerExpiry c p s).beds = s.beds ∧
    (blockTimerExpiry c p s).mixes = s.mixes ∧ (blockTimerExpiry c p s).freeCount = s.freeCount ∧
    (blockTimerExpiry c p s).steam = s.steam ∧ (blockTimerExpiry c p s).roster = s.roster ∧
    (blockTimerExpiry c p s).loops = s.loops ∧ (blockTimerExpiry c p s).rosterLoaded = s.rosterLoaded ∧
    (blockTimerExpiry c p s).stock = s.stock ∧ (blockTimerExpiry c p s).yardStop = s.yardStop ∧
    (blockTimerExpiry c p s).cranesLoaded = s.cranesLoaded ∧ (blockTimerExpiry c p s).moves = s.moves ∧
    (blockTimerExpiry c p s).clockMs = s.clockMs := by
  simp only [blockTimerExpiry]
  simp

@[simp] theorem refuseArm_keeps (c : Fin 2) (result : Code) (s : State) :
    (refuseArm c result s).pending = s.pending ∧ (refuseArm c result s).mem = s.mem ∧
    (refuseArm c result s).host = s.host ∧ (refuseArm c result s).dir = s.dir ∧
    (refuseArm c result s).load = s.load ∧ (refuseArm c result s).beds = s.beds ∧
    (refuseArm c result s).mixes = s.mixes ∧ (refuseArm c result s).freeCount = s.freeCount ∧
    (refuseArm c result s).steam = s.steam ∧ (refuseArm c result s).roster = s.roster ∧
    (refuseArm c result s).loops = s.loops ∧ (refuseArm c result s).rosterLoaded = s.rosterLoaded ∧
    (refuseArm c result s).stock = s.stock ∧ (refuseArm c result s).yardStop = s.yardStop ∧
    (refuseArm c result s).cranesLoaded = s.cranesLoaded ∧ (refuseArm c result s).moves = s.moves ∧
    (refuseArm c result s).clockMs = s.clockMs := by
  simp only [refuseArm]
  simp

@[simp] theorem takeArm_keeps (c : Fin 2) (failed : Bool) (s : State) :
    (takeArm c failed s).pending = s.pending ∧ (takeArm c failed s).mem = s.mem ∧
    (takeArm c failed s).host = s.host ∧ (takeArm c failed s).dir = s.dir ∧ (takeArm c failed s).load = s.load ∧
    (takeArm c failed s).beds = s.beds ∧ (takeArm c failed s).mixes = s.mixes ∧
    (takeArm c failed s).freeCount = s.freeCount ∧ (takeArm c failed s).steam = s.steam ∧
    (takeArm c failed s).roster = s.roster ∧ (takeArm c failed s).loops = s.loops ∧
    (takeArm c failed s).rosterLoaded = s.rosterLoaded ∧ (takeArm c failed s).stock = s.stock ∧
    (takeArm c failed s).yardStop = s.yardStop ∧ (takeArm c failed s).cranesLoaded = s.cranesLoaded ∧
    (takeArm c failed s).moves = s.moves ∧ (takeArm c failed s).clockMs = s.clockMs := by
  simp only [takeArm]
  (repeat' split) <;> simp

@[simp] theorem releaseCrane_keeps (c : Fin 2) (s : State) :
    (releaseCrane c s).pending = s.pending ∧ (releaseCrane c s).mem = s.mem ∧ (releaseCrane c s).host = s.host ∧
    (releaseCrane c s).dir = s.dir ∧ (releaseCrane c s).load = s.load ∧ (releaseCrane c s).beds = s.beds ∧
    (releaseCrane c s).mixes = s.mixes ∧ (releaseCrane c s).freeCount = s.freeCount ∧
    (releaseCrane c s).steam = s.steam ∧ (releaseCrane c s).roster = s.roster ∧ (releaseCrane c s).loops = s.loops ∧
    (releaseCrane c s).rosterLoaded = s.rosterLoaded ∧ (releaseCrane c s).stock = s.stock ∧
    (releaseCrane c s).yardStop = s.yardStop ∧ (releaseCrane c s).cranesLoaded = s.cranesLoaded ∧
    (releaseCrane c s).clockMs = s.clockMs := by
  simp only [releaseCrane]
  (repeat' split) <;> simp

@[simp] theorem cranesSafe_keeps (s : State) :
    (cranesSafe s).pending = s.pending ∧ (cranesSafe s).mem = s.mem ∧ (cranesSafe s).host = s.host ∧
    (cranesSafe s).dir = s.dir ∧ (cranesSafe s).load = s.load ∧ (cranesSafe s).beds = s.beds ∧
    (cranesSafe s).mixes = s.mixes ∧ (cranesSafe s).freeCount = s.freeCount ∧ (cranesSafe s).steam = s.steam ∧
    (cranesSafe s).roster = s.roster ∧ (cranesSafe s).loops = s.loops ∧
    (cranesSafe s).rosterLoaded = s.rosterLoaded ∧ (cranesSafe s).stock = s.stock ∧
    (cranesSafe s).yardStop = s.yardStop ∧ (cranesSafe s).cranesLoaded = s.cranesLoaded ∧
    (cranesSafe s).moves = s.moves ∧ (cranesSafe s).clockMs = s.clockMs := by
  simp only [cranesSafe]
  refine ⟨forCranes_pending _ ?_ _, forCranes_mem _ ?_ _, forCranes_host _ ?_ _, forCranes_dir _ ?_ _, forCranes_load _ ?_ _, forCranes_beds _ ?_ _, forCranes_mixes _ ?_ _, forCranes_freeCount _ ?_ _, forCranes_steam _ ?_ _, forCranes_roster _ ?_ _, forCranes_loops _ ?_ _, forCranes_rosterLoaded _ ?_ _, forCranes_stock _ ?_ _, forCranes_yardStop _ ?_ _, forCranes_cranesLoaded _ ?_ _, forCranes_moves _ ?_ _, forCranes_clockMs _ ?_ _⟩ <;>
    (intro b s; simp)

end Sys2Proof.Machine
end

