-- ==== Sys2Proof/Laws/Moves.lean ====
section
/-! SUPPORT. What each operation of Machine/Moves.lean leaves as it was: the fields of State it never writes. -/

namespace Sys2Proof.Machine

@[simp] theorem leaveQueue_keeps (c : Fin 2) (number : Nat) (s : State) :
    (leaveQueue c number s).pending = s.pending ∧ (leaveQueue c number s).mem = s.mem ∧
    (leaveQueue c number s).host = s.host ∧ (leaveQueue c number s).dir = s.dir ∧
    (leaveQueue c number s).load = s.load ∧ (leaveQueue c number s).beds = s.beds ∧
    (leaveQueue c number s).mixes = s.mixes ∧ (leaveQueue c number s).freeCount = s.freeCount ∧
    (leaveQueue c number s).steam = s.steam ∧ (leaveQueue c number s).roster = s.roster ∧
    (leaveQueue c number s).loops = s.loops ∧ (leaveQueue c number s).rosterLoaded = s.rosterLoaded ∧
    (leaveQueue c number s).stock = s.stock ∧ (leaveQueue c number s).yardStop = s.yardStop ∧
    (leaveQueue c number s).cranesLoaded = s.cranesLoaded ∧ (leaveQueue c number s).moves = s.moves ∧
    (leaveQueue c number s).clockMs = s.clockMs := by
  simp only [leaveQueue]
  simp

@[simp] theorem pumpEnds_keeps (s : State) :
    (pumpEnds s).pending = s.pending ∧ (pumpEnds s).mem = s.mem ∧ (pumpEnds s).host = s.host ∧
    (pumpEnds s).dir = s.dir ∧ (pumpEnds s).load = s.load ∧ (pumpEnds s).beds = s.beds ∧
    (pumpEnds s).mixes = s.mixes ∧ (pumpEnds s).freeCount = s.freeCount ∧ (pumpEnds s).steam = s.steam ∧
    (pumpEnds s).roster = s.roster ∧ (pumpEnds s).loops = s.loops ∧ (pumpEnds s).rosterLoaded = s.rosterLoaded ∧
    (pumpEnds s).stock = s.stock ∧ (pumpEnds s).cranes = s.cranes ∧ (pumpEnds s).yardStop = s.yardStop ∧
    (pumpEnds s).cranesLoaded = s.cranesLoaded ∧ (pumpEnds s).clockMs = s.clockMs := by
  simp only [pumpEnds]
  (repeat' split) <;> simp

@[simp] theorem endAborted_keeps (i : Fin 16) (reason : Code) (byHost notice : Bool) (s : State) :
    (endAborted i reason byHost notice s).pending = s.pending ∧ (endAborted i reason byHost notice s).mem = s.mem ∧
    (endAborted i reason byHost notice s).host = s.host ∧ (endAborted i reason byHost notice s).dir = s.dir ∧
    (endAborted i reason byHost notice s).load = s.load ∧ (endAborted i reason byHost notice s).beds = s.beds ∧
    (endAborted i reason byHost notice s).mixes = s.mixes ∧
    (endAborted i reason byHost notice s).freeCount = s.freeCount ∧
    (endAborted i reason byHost notice s).steam = s.steam ∧
    (endAborted i reason byHost notice s).roster = s.roster ∧
    (endAborted i reason byHost notice s).loops = s.loops ∧
    (endAborted i reason byHost notice s).rosterLoaded = s.rosterLoaded ∧
    (endAborted i reason byHost notice s).stock = s.stock ∧
    (endAborted i reason byHost notice s).yardStop = s.yardStop ∧
    (endAborted i reason byHost notice s).cranesLoaded = s.cranesLoaded ∧
    (endAborted i reason byHost notice s).clockMs = s.clockMs := by
  simp only [endAborted]
  (repeat' split) <;> simp

@[simp] theorem endReleased_keeps (numbers : List Nat) (notice : Bool) (s : State) :
    (endReleased numbers notice s).pending = s.pending ∧ (endReleased numbers notice s).mem = s.mem ∧
    (endReleased numbers notice s).host = s.host ∧ (endReleased numbers notice s).dir = s.dir ∧
    (endReleased numbers notice s).load = s.load ∧ (endReleased numbers notice s).beds = s.beds ∧
    (endReleased numbers notice s).mixes = s.mixes ∧ (endReleased numbers notice s).freeCount = s.freeCount ∧
    (endReleased numbers notice s).steam = s.steam ∧ (endReleased numbers notice s).roster = s.roster ∧
    (endReleased numbers notice s).loops = s.loops ∧ (endReleased numbers notice s).rosterLoaded = s.rosterLoaded ∧
    (endReleased numbers notice s).stock = s.stock ∧ (endReleased numbers notice s).yardStop = s.yardStop ∧
    (endReleased numbers notice s).cranesLoaded = s.cranesLoaded ∧
    (endReleased numbers notice s).clockMs = s.clockMs := by
  simp only [endReleased]
  refine ⟨foldl_pending _ ?_ _ _, foldl_mem _ ?_ _ _, foldl_host _ ?_ _ _, foldl_dir _ ?_ _ _, foldl_load _ ?_ _ _, foldl_beds _ ?_ _ _, foldl_mixes _ ?_ _ _, foldl_freeCount _ ?_ _ _, foldl_steam _ ?_ _ _, foldl_roster _ ?_ _ _, foldl_loops _ ?_ _ _, foldl_rosterLoaded _ ?_ _ _, foldl_stock _ ?_ _ _, foldl_yardStop _ ?_ _ _, foldl_cranesLoaded _ ?_ _ _, foldl_clockMs _ ?_ _ _⟩ <;>
    (intro s x; (repeat' split) <;> simp)

@[simp] theorem abortMove_keeps (i : Fin 16) (reason : Code) (byHost : Bool) (s : State) :
    (abortMove i reason byHost s).pending = s.pending ∧ (abortMove i reason byHost s).mem = s.mem ∧
    (abortMove i reason byHost s).host = s.host ∧ (abortMove i reason byHost s).dir = s.dir ∧
    (abortMove i reason byHost s).load = s.load ∧ (abortMove i reason byHost s).beds = s.beds ∧
    (abortMove i reason byHost s).mixes = s.mixes ∧ (abortMove i reason byHost s).freeCount = s.freeCount ∧
    (abortMove i reason byHost s).steam = s.steam ∧ (abortMove i reason byHost s).roster = s.roster ∧
    (abortMove i reason byHost s).loops = s.loops ∧ (abortMove i reason byHost s).rosterLoaded = s.rosterLoaded ∧
    (abortMove i reason byHost s).yardStop = s.yardStop ∧
    (abortMove i reason byHost s).cranesLoaded = s.cranesLoaded ∧ (abortMove i reason byHost s).clockMs = s.clockMs := by
  simp only [abortMove]
  (repeat' split) <;> simp

@[simp] theorem moveEndGroup_keeps (s : State) :
    (moveEndGroup s).1.pending = s.pending ∧ (moveEndGroup s).1.mem = s.mem ∧ (moveEndGroup s).1.host = s.host ∧
    (moveEndGroup s).1.path = s.path ∧ (moveEndGroup s).1.dir = s.dir ∧ (moveEndGroup s).1.load = s.load ∧
    (moveEndGroup s).1.beds = s.beds ∧ (moveEndGroup s).1.mixes = s.mixes ∧
    (moveEndGroup s).1.freeCount = s.freeCount ∧ (moveEndGroup s).1.steam = s.steam ∧
    (moveEndGroup s).1.roster = s.roster ∧ (moveEndGroup s).1.loops = s.loops ∧
    (moveEndGroup s).1.rosterLoaded = s.rosterLoaded ∧ (moveEndGroup s).1.stock = s.stock ∧
    (moveEndGroup s).1.cranes = s.cranes ∧ (moveEndGroup s).1.yardStop = s.yardStop ∧
    (moveEndGroup s).1.cranesLoaded = s.cranesLoaded ∧ (moveEndGroup s).1.clockMs = s.clockMs := by
  simp only [moveEndGroup]
  (repeat' split) <;> simp

@[simp] theorem moveEndDone_keeps (i : Fin 16) (s : State) :
    (moveEndDone i s).pending = s.pending ∧ (moveEndDone i s).mem = s.mem ∧ (moveEndDone i s).host = s.host ∧
    (moveEndDone i s).dir = s.dir ∧ (moveEndDone i s).load = s.load ∧ (moveEndDone i s).beds = s.beds ∧
    (moveEndDone i s).mixes = s.mixes ∧ (moveEndDone i s).freeCount = s.freeCount ∧
    (moveEndDone i s).steam = s.steam ∧ (moveEndDone i s).roster = s.roster ∧ (moveEndDone i s).loops = s.loops ∧
    (moveEndDone i s).rosterLoaded = s.rosterLoaded ∧ (moveEndDone i s).stock = s.stock ∧
    (moveEndDone i s).cranes = s.cranes ∧ (moveEndDone i s).yardStop = s.yardStop ∧
    (moveEndDone i s).cranesLoaded = s.cranesLoaded ∧ (moveEndDone i s).clockMs = s.clockMs := by
  simp only [moveEndDone]
  (repeat' split) <;> simp

@[simp] theorem endDone_keeps (i : Fin 16) (s : State) :
    (endDone i s).pending = s.pending ∧ (endDone i s).mem = s.mem ∧ (endDone i s).host = s.host ∧
    (endDone i s).dir = s.dir ∧ (endDone i s).load = s.load ∧ (endDone i s).beds = s.beds ∧
    (endDone i s).mixes = s.mixes ∧ (endDone i s).freeCount = s.freeCount ∧ (endDone i s).steam = s.steam ∧
    (endDone i s).roster = s.roster ∧ (endDone i s).loops = s.loops ∧ (endDone i s).rosterLoaded = s.rosterLoaded ∧
    (endDone i s).stock = s.stock ∧ (endDone i s).yardStop = s.yardStop ∧
    (endDone i s).cranesLoaded = s.cranesLoaded ∧ (endDone i s).clockMs = s.clockMs := by
  simp only [endDone]
  simp

@[simp] theorem reserve_keeps (c : Fin 2) (i : Fin 16) (m : Move) (s : State) :
    (reserve c i m s).pending = s.pending ∧ (reserve c i m s).mem = s.mem ∧ (reserve c i m s).host = s.host ∧
    (reserve c i m s).dir = s.dir ∧ (reserve c i m s).load = s.load ∧ (reserve c i m s).beds = s.beds ∧
    (reserve c i m s).mixes = s.mixes ∧ (reserve c i m s).freeCount = s.freeCount ∧
    (reserve c i m s).steam = s.steam ∧ (reserve c i m s).roster = s.roster ∧ (reserve c i m s).loops = s.loops ∧
    (reserve c i m s).rosterLoaded = s.rosterLoaded ∧ (reserve c i m s).stock = s.stock ∧
    (reserve c i m s).yardStop = s.yardStop ∧ (reserve c i m s).cranesLoaded = s.cranesLoaded ∧
    (reserve c i m s).clockMs = s.clockMs := by
  simp only [reserve]
  simp

@[simp] theorem enterReserving_keeps (c : Fin 2) (i : Fin 16) (m : Move) (s : State) :
    (enterReserving c i m s).pending = s.pending ∧ (enterReserving c i m s).mem = s.mem ∧
    (enterReserving c i m s).host = s.host ∧ (enterReserving c i m s).dir = s.dir ∧
    (enterReserving c i m s).load = s.load ∧ (enterReserving c i m s).beds = s.beds ∧
    (enterReserving c i m s).mixes = s.mixes ∧ (enterReserving c i m s).freeCount = s.freeCount ∧
    (enterReserving c i m s).steam = s.steam ∧ (enterReserving c i m s).roster = s.roster ∧
    (enterReserving c i m s).loops = s.loops ∧ (enterReserving c i m s).rosterLoaded = s.rosterLoaded ∧
    (enterReserving c i m s).yardStop = s.yardStop ∧ (enterReserving c i m s).cranesLoaded = s.cranesLoaded ∧
    (enterReserving c i m s).clockMs = s.clockMs := by
  simp only [enterReserving]
  (repeat' split) <;> simp

@[simp] theorem moveStart_keeps (c : Fin 2) (s : State) :
    (moveStart c s).pending = s.pending ∧ (moveStart c s).mem = s.mem ∧ (moveStart c s).host = s.host ∧
    (moveStart c s).dir = s.dir ∧ (moveStart c s).load = s.load ∧ (moveStart c s).beds = s.beds ∧
    (moveStart c s).mixes = s.mixes ∧ (moveStart c s).freeCount = s.freeCount ∧ (moveStart c s).steam = s.steam ∧
    (moveStart c s).roster = s.roster ∧ (moveStart c s).loops = s.loops ∧
    (moveStart c s).rosterLoaded = s.rosterLoaded ∧ (moveStart c s).yardStop = s.yardStop ∧
    (moveStart c s).cranesLoaded = s.cranesLoaded ∧ (moveStart c s).clockMs = s.clockMs := by
  simp only [moveStart]
  (repeat' split) <;> simp

@[simp] theorem moveResume_keeps (c : Fin 2) (s : State) :
    (moveResume c s).pending = s.pending ∧ (moveResume c s).mem = s.mem ∧ (moveResume c s).host = s.host ∧
    (moveResume c s).dir = s.dir ∧ (moveResume c s).load = s.load ∧ (moveResume c s).beds = s.beds ∧
    (moveResume c s).mixes = s.mixes ∧ (moveResume c s).freeCount = s.freeCount ∧ (moveResume c s).steam = s.steam ∧
    (moveResume c s).roster = s.roster ∧ (moveResume c s).loops = s.loops ∧
    (moveResume c s).rosterLoaded = s.rosterLoaded ∧ (moveResume c s).yardStop = s.yardStop ∧
    (moveResume c s).cranesLoaded = s.cranesLoaded ∧ (moveResume c s).clockMs = s.clockMs := by
  simp only [moveResume]
  (repeat' split) <;> simp

@[simp] theorem waitExpiry_keeps (c : Fin 2) (s : State) :
    (waitExpiry c s).pending = s.pending ∧ (waitExpiry c s).mem = s.mem ∧ (waitExpiry c s).host = s.host ∧
    (waitExpiry c s).dir = s.dir ∧ (waitExpiry c s).load = s.load ∧ (waitExpiry c s).beds = s.beds ∧
    (waitExpiry c s).mixes = s.mixes ∧ (waitExpiry c s).freeCount = s.freeCount ∧ (waitExpiry c s).steam = s.steam ∧
    (waitExpiry c s).roster = s.roster ∧ (waitExpiry c s).loops = s.loops ∧
    (waitExpiry c s).rosterLoaded = s.rosterLoaded ∧ (waitExpiry c s).yardStop = s.yardStop ∧
    (waitExpiry c s).cranesLoaded = s.cranesLoaded ∧ (waitExpiry c s).clockMs = s.clockMs := by
  simp only [waitExpiry]
  (repeat' split) <;> simp

@[simp] theorem travelExpiry_keeps (c : Fin 2) (s : State) :
    (travelExpiry c s).pending = s.pending ∧ (travelExpiry c s).mem = s.mem ∧ (travelExpiry c s).host = s.host ∧
    (travelExpiry c s).dir = s.dir ∧ (travelExpiry c s).load = s.load ∧ (travelExpiry c s).beds = s.beds ∧
    (travelExpiry c s).mixes = s.mixes ∧ (travelExpiry c s).freeCount = s.freeCount ∧
    (travelExpiry c s).steam = s.steam ∧ (travelExpiry c s).roster = s.roster ∧ (travelExpiry c s).loops = s.loops ∧
    (travelExpiry c s).rosterLoaded = s.rosterLoaded ∧ (travelExpiry c s).yardStop = s.yardStop ∧
    (travelExpiry c s).cranesLoaded = s.cranesLoaded ∧ (travelExpiry c s).clockMs = s.clockMs := by
  simp only [travelExpiry]
  (repeat' split) <;> simp

@[simp] theorem goToPlace_keeps (c : Fin 2) (i : Fin 16) (s : State) :
    (goToPlace c i s).pending = s.pending ∧ (goToPlace c i s).mem = s.mem ∧ (goToPlace c i s).host = s.host ∧
    (goToPlace c i s).dir = s.dir ∧ (goToPlace c i s).load = s.load ∧ (goToPlace c i s).beds = s.beds ∧
    (goToPlace c i s).mixes = s.mixes ∧ (goToPlace c i s).freeCount = s.freeCount ∧
    (goToPlace c i s).steam = s.steam ∧ (goToPlace c i s).roster = s.roster ∧ (goToPlace c i s).loops = s.loops ∧
    (goToPlace c i s).rosterLoaded = s.rosterLoaded ∧ (goToPlace c i s).stock = s.stock ∧
    (goToPlace c i s).yardStop = s.yardStop ∧ (goToPlace c i s).cranesLoaded = s.cranesLoaded ∧
    (goToPlace c i s).clockMs = s.clockMs := by
  simp only [goToPlace]
  (repeat' split) <;> simp

@[simp] theorem tryLower_keeps (c : Fin 2) (s : State) :
    (tryLower c s).pending = s.pending ∧ (tryLower c s).mem = s.mem ∧ (tryLower c s).host = s.host ∧
    (tryLower c s).dir = s.dir ∧ (tryLower c s).load = s.load ∧ (tryLower c s).beds = s.beds ∧
    (tryLower c s).mixes = s.mixes ∧ (tryLower c s).freeCount = s.freeCount ∧ (tryLower c s).steam = s.steam ∧
    (tryLower c s).roster = s.roster ∧ (tryLower c s).loops = s.loops ∧
    (tryLower c s).rosterLoaded = s.rosterLoaded ∧ (tryLower c s).stock = s.stock ∧
    (tryLower c s).yardStop = s.yardStop ∧ (tryLower c s).cranesLoaded = s.cranesLoaded ∧
    (tryLower c s).clockMs = s.clockMs := by
  simp only [tryLower]
  (repeat' split) <;> simp

@[simp] theorem staleReport_keeps (c : Fin 2) (r : Report) (s : State) :
    (staleReport c r s).pending = s.pending ∧ (staleReport c r s).mem = s.mem ∧ (staleReport c r s).host = s.host ∧
    (staleReport c r s).path = s.path ∧ (staleReport c r s).dir = s.dir ∧ (staleReport c r s).load = s.load ∧
    (staleReport c r s).beds = s.beds ∧ (staleReport c r s).mixes = s.mixes ∧
    (staleReport c r s).freeCount = s.freeCount ∧ (staleReport c r s).steam = s.steam ∧
    (staleReport c r s).roster = s.roster ∧ (staleReport c r s).loops = s.loops ∧
    (staleReport c r s).rosterLoaded = s.rosterLoaded ∧ (staleReport c r s).stock = s.stock ∧
    (staleReport c r s).cranes = s.cranes ∧ (staleReport c r s).yardStop = s.yardStop ∧
    (staleReport c r s).cranesLoaded = s.cranesLoaded ∧ (staleReport c r s).moves = s.moves ∧
    (staleReport c r s).clockMs = s.clockMs := by
  simp only [staleReport]
  simp

@[simp] theorem setSequence_keeps (c : Fin 2) (s : State) :
    (setSequence c s).pending = s.pending ∧ (setSequence c s).mem = s.mem ∧ (setSequence c s).host = s.host ∧
    (setSequence c s).dir = s.dir ∧ (setSequence c s).load = s.load ∧ (setSequence c s).beds = s.beds ∧
    (setSequence c s).mixes = s.mixes ∧ (setSequence c s).freeCount = s.freeCount ∧
    (setSequence c s).steam = s.steam ∧ (setSequence c s).roster = s.roster ∧ (setSequence c s).loops = s.loops ∧
    (setSequence c s).rosterLoaded = s.rosterLoaded ∧ (setSequence c s).stock = s.stock ∧
    (setSequence c s).yardStop = s.yardStop ∧ (setSequence c s).cranesLoaded = s.cranesLoaded ∧
    (setSequence c s).moves = s.moves ∧ (setSequence c s).clockMs = s.clockMs := by
  simp only [setSequence]
  (repeat' split) <;> simp

@[simp] theorem outOfPhase_keeps (c : Fin 2) (s : State) :
    (outOfPhase c s).pending = s.pending ∧ (outOfPhase c s).mem = s.mem ∧ (outOfPhase c s).host = s.host ∧
    (outOfPhase c s).dir = s.dir ∧ (outOfPhase c s).load = s.load ∧ (outOfPhase c s).beds = s.beds ∧
    (outOfPhase c s).mixes = s.mixes ∧ (outOfPhase c s).freeCount = s.freeCount ∧ (outOfPhase c s).steam = s.steam ∧
    (outOfPhase c s).roster = s.roster ∧ (outOfPhase c s).loops = s.loops ∧
    (outOfPhase c s).rosterLoaded = s.rosterLoaded ∧ (outOfPhase c s).stock = s.stock ∧
    (outOfPhase c s).yardStop = s.yardStop ∧ (outOfPhase c s).cranesLoaded = s.cranesLoaded ∧
    (outOfPhase c s).clockMs = s.clockMs := by
  simp only [outOfPhase]
  simp

@[simp] theorem releaseSequence_keeps (c : Fin 2) (s : State) :
    (releaseSequence c s).pending = s.pending ∧ (releaseSequence c s).mem = s.mem ∧
    (releaseSequence c s).host = s.host ∧ (releaseSequence c s).dir = s.dir ∧ (releaseSequence c s).load = s.load ∧
    (releaseSequence c s).beds = s.beds ∧ (releaseSequence c s).mixes = s.mixes ∧
    (releaseSequence c s).freeCount = s.freeCount ∧ (releaseSequence c s).steam = s.steam ∧
    (releaseSequence c s).roster = s.roster ∧ (releaseSequence c s).loops = s.loops ∧
    (releaseSequence c s).rosterLoaded = s.rosterLoaded ∧ (releaseSequence c s).stock = s.stock ∧
    (releaseSequence c s).yardStop = s.yardStop ∧ (releaseSequence c s).cranesLoaded = s.cranesLoaded ∧
    (releaseSequence c s).moves = s.moves ∧ (releaseSequence c s).clockMs = s.clockMs := by
  simp only [releaseSequence]
  (repeat' split) <;> simp

@[simp] theorem arrivedReport_keeps (c : Fin 2) (i : Fin 16) (r : Report) (s : State) :
    (arrivedReport c i r s).pending = s.pending ∧ (arrivedReport c i r s).mem = s.mem ∧
    (arrivedReport c i r s).host = s.host ∧ (arrivedReport c i r s).dir = s.dir ∧
    (arrivedReport c i r s).load = s.load ∧ (arrivedReport c i r s).beds = s.beds ∧
    (arrivedReport c i r s).mixes = s.mixes ∧ (arrivedReport c i r s).freeCount = s.freeCount ∧
    (arrivedReport c i r s).steam = s.steam ∧ (arrivedReport c i r s).roster = s.roster ∧
    (arrivedReport c i r s).loops = s.loops ∧ (arrivedReport c i r s).rosterLoaded = s.rosterLoaded ∧
    (arrivedReport c i r s).stock = s.stock ∧ (arrivedReport c i r s).yardStop = s.yardStop ∧
    (arrivedReport c i r s).cranesLoaded = s.cranesLoaded ∧ (arrivedReport c i r s).clockMs = s.clockMs := by
  simp only [arrivedReport]
  (repeat' split) <;> simp

@[simp] theorem cannotReport_keeps (c : Fin 2) (i : Fin 16) (s : State) :
    (cannotReport c i s).pending = s.pending ∧ (cannotReport c i s).mem = s.mem ∧
    (cannotReport c i s).host = s.host ∧ (cannotReport c i s).dir = s.dir ∧ (cannotReport c i s).load = s.load ∧
    (cannotReport c i s).beds = s.beds ∧ (cannotReport c i s).mixes = s.mixes ∧
    (cannotReport c i s).freeCount = s.freeCount ∧ (cannotReport c i s).steam = s.steam ∧
    (cannotReport c i s).roster = s.roster ∧ (cannotReport c i s).loops = s.loops ∧
    (cannotReport c i s).rosterLoaded = s.rosterLoaded ∧ (cannotReport c i s).yardStop = s.yardStop ∧
    (cannotReport c i s).cranesLoaded = s.cranesLoaded ∧ (cannotReport c i s).clockMs = s.clockMs := by
  simp only [cannotReport]
  (repeat' split) <;> simp

@[simp] theorem applyReport_keeps (c : Fin 2) (r : Report) (s : State) :
    (applyReport c r s).pending = s.pending ∧ (applyReport c r s).mem = s.mem ∧ (applyReport c r s).host = s.host ∧
    (applyReport c r s).dir = s.dir ∧ (applyReport c r s).load = s.load ∧ (applyReport c r s).beds = s.beds ∧
    (applyReport c r s).mixes = s.mixes ∧ (applyReport c r s).freeCount = s.freeCount ∧
    (applyReport c r s).steam = s.steam ∧ (applyReport c r s).roster = s.roster ∧
    (applyReport c r s).loops = s.loops ∧ (applyReport c r s).rosterLoaded = s.rosterLoaded ∧
    (applyReport c r s).yardStop = s.yardStop ∧ (applyReport c r s).cranesLoaded = s.cranesLoaded ∧
    (applyReport c r s).clockMs = s.clockMs := by
  simp only [applyReport]
  (repeat' split) <;> simp

theorem hookedGroup_keeps (c : Fin 2) (i : Fin 16) (r : Report) (s : State) (out : (State × List Span)) (h : hookedGroup c i r s = some out) :
    out.1.pending = s.pending ∧ out.1.mem = s.mem ∧ out.1.host = s.host ∧ out.1.dir = s.dir ∧ out.1.load = s.load ∧
    out.1.freeCount = s.freeCount ∧ out.1.steam = s.steam ∧ out.1.roster = s.roster ∧ out.1.loops = s.loops ∧
    out.1.rosterLoaded = s.rosterLoaded ∧ out.1.yardStop = s.yardStop ∧ out.1.cranesLoaded = s.cranesLoaded ∧
    out.1.clockMs = s.clockMs := by
  simp only [hookedGroup] at h
  (repeat' split at h) <;> first
    | (cases h; done)
    | (cases h; simp; done)
    | (cases h; rename_i hd; have k := pick_keeps _ _ _ _ hd; simp at k; simp [k])

theorem unhookedGroup_keeps (i : Fin 16) (s : State) (out : (State × List Span)) (h : unhookedGroup i s = some out) :
    out.1.pending = s.pending ∧ out.1.mem = s.mem ∧ out.1.host = s.host ∧ out.1.dir = s.dir ∧ out.1.load = s.load ∧
    out.1.beds = s.beds ∧ out.1.mixes = s.mixes ∧ out.1.freeCount = s.freeCount ∧ out.1.steam = s.steam ∧
    out.1.roster = s.roster ∧ out.1.loops = s.loops ∧ out.1.rosterLoaded = s.rosterLoaded ∧
    out.1.yardStop = s.yardStop ∧ out.1.cranesLoaded = s.cranesLoaded ∧ out.1.clockMs = s.clockMs := by
  simp only [unhookedGroup] at h
  split at h
  · split at h
    · rename_i hd
      have k := land_keeps _ _ _ _ _ hd
      simp only at k
      simp only [Option.some.injEq] at h
      subst h
      simp [k]
    · cases h
  · cases h

@[simp] theorem dropReport_keeps (c : Fin 2) (s : State) :
    (dropReport c s).pending = s.pending ∧ (dropReport c s).mem = s.mem ∧ (dropReport c s).host = s.host ∧
    (dropReport c s).dir = s.dir ∧ (dropReport c s).load = s.load ∧ (dropReport c s).beds = s.beds ∧
    (dropReport c s).mixes = s.mixes ∧ (dropReport c s).freeCount = s.freeCount ∧ (dropReport c s).steam = s.steam ∧
    (dropReport c s).roster = s.roster ∧ (dropReport c s).loops = s.loops ∧
    (dropReport c s).rosterLoaded = s.rosterLoaded ∧ (dropReport c s).stock = s.stock ∧
    (dropReport c s).yardStop = s.yardStop ∧ (dropReport c s).cranesLoaded = s.cranesLoaded ∧
    (dropReport c s).moves = s.moves ∧ (dropReport c s).clockMs = s.clockMs := by
  simp only [dropReport]
  simp

@[simp] theorem takeReports_keeps (c : Fin 2) (n : Nat) (s : State) :
    (takeReports c n s).pending = s.pending ∧ (takeReports c n s).mem = s.mem ∧ (takeReports c n s).host = s.host ∧
    (takeReports c n s).dir = s.dir ∧ (takeReports c n s).load = s.load ∧ (takeReports c n s).beds = s.beds ∧
    (takeReports c n s).mixes = s.mixes ∧ (takeReports c n s).freeCount = s.freeCount ∧
    (takeReports c n s).steam = s.steam ∧ (takeReports c n s).roster = s.roster ∧
    (takeReports c n s).loops = s.loops ∧ (takeReports c n s).rosterLoaded = s.rosterLoaded ∧
    (takeReports c n s).yardStop = s.yardStop ∧ (takeReports c n s).cranesLoaded = s.cranesLoaded ∧
    (takeReports c n s).clockMs = s.clockMs := by
  induction n generalizing s with
  | zero => simp [takeReports]
  | succ n ih =>
    simp only [takeReports]
    (repeat' split) <;> simp [ih]

@[simp] theorem reportGroup_keeps (c : Fin 2) (s : State) :
    (reportGroup c s).1.pending = s.pending ∧ (reportGroup c s).1.mem = s.mem ∧ (reportGroup c s).1.host = s.host ∧
    (reportGroup c s).1.dir = s.dir ∧ (reportGroup c s).1.load = s.load ∧
    (reportGroup c s).1.freeCount = s.freeCount ∧ (reportGroup c s).1.steam = s.steam ∧
    (reportGroup c s).1.roster = s.roster ∧ (reportGroup c s).1.loops = s.loops ∧
    (reportGroup c s).1.rosterLoaded = s.rosterLoaded ∧ (reportGroup c s).1.yardStop = s.yardStop ∧
    (reportGroup c s).1.cranesLoaded = s.cranesLoaded ∧ (reportGroup c s).1.clockMs = s.clockMs := by
  simp only [reportGroup]
  split
  · simp
  · split
    · rename_i hg
      split at hg
      · cases hg
      · split at hg
        · cases hg
        · split at hg
          · have k := hookedGroup_keeps _ _ _ _ _ hg
            simp at k
            simp [k]
          · have k := unhookedGroup_keeps _ _ _ hg
            simp at k
            simp [k]
          · cases hg
    · simp

@[simp] theorem validBlock_keeps (c : Fin 2) (r : Report) (s : State) :
    (validBlock c r s).pending = s.pending ∧ (validBlock c r s).mem = s.mem ∧ (validBlock c r s).host = s.host ∧
    (validBlock c r s).dir = s.dir ∧ (validBlock c r s).load = s.load ∧ (validBlock c r s).beds = s.beds ∧
    (validBlock c r s).mixes = s.mixes ∧ (validBlock c r s).freeCount = s.freeCount ∧
    (validBlock c r s).steam = s.steam ∧ (validBlock c r s).roster = s.roster ∧ (validBlock c r s).loops = s.loops ∧
    (validBlock c r s).rosterLoaded = s.rosterLoaded ∧ (validBlock c r s).yardStop = s.yardStop ∧
    (validBlock c r s).cranesLoaded = s.cranesLoaded ∧ (validBlock c r s).clockMs = s.clockMs := by
  simp only [validBlock]
  (repeat' split) <;> simp

@[simp] theorem endBlock_keeps (c : Fin 2) (block : List RxChar) (s : State) :
    (endBlock c block s).pending = s.pending ∧ (endBlock c block s).mem = s.mem ∧
    (endBlock c block s).host = s.host ∧ (endBlock c block s).dir = s.dir ∧ (endBlock c block s).load = s.load ∧
    (endBlock c block s).beds = s.beds ∧ (endBlock c block s).mixes = s.mixes ∧
    (endBlock c block s).freeCount = s.freeCount ∧ (endBlock c block s).steam = s.steam ∧
    (endBlock c block s).roster = s.roster ∧ (endBlock c block s).loops = s.loops ∧
    (endBlock c block s).rosterLoaded = s.rosterLoaded ∧ (endBlock c block s).yardStop = s.yardStop ∧
    (endBlock c block s).cranesLoaded = s.cranesLoaded ∧ (endBlock c block s).clockMs = s.clockMs := by
  simp only [endBlock]
  (repeat' split) <;> simp

@[simp] theorem hearCab_keeps (c : Fin 2) (fuel : Nat) (samples : List Bool) (s : State) :
    (hearCab c fuel samples s).pending = s.pending ∧ (hearCab c fuel samples s).mem = s.mem ∧
    (hearCab c fuel samples s).host = s.host ∧ (hearCab c fuel samples s).dir = s.dir ∧
    (hearCab c fuel samples s).load = s.load ∧ (hearCab c fuel samples s).beds = s.beds ∧
    (hearCab c fuel samples s).mixes = s.mixes ∧ (hearCab c fuel samples s).freeCount = s.freeCount ∧
    (hearCab c fuel samples s).steam = s.steam ∧ (hearCab c fuel samples s).roster = s.roster ∧
    (hearCab c fuel samples s).loops = s.loops ∧ (hearCab c fuel samples s).rosterLoaded = s.rosterLoaded ∧
    (hearCab c fuel samples s).yardStop = s.yardStop ∧ (hearCab c fuel samples s).cranesLoaded = s.cranesLoaded ∧
    (hearCab c fuel samples s).clockMs = s.clockMs := by
  induction fuel generalizing samples s with
  | zero => simp [hearCab]
  | succ n ih =>
    simp only [hearCab]
    split
    · simp only [ih]
      simp
    · simp

@[simp] theorem cabBlock_keeps (c : Fin 2) (samples : List Bool) (s : State) :
    (cabBlock c samples s).pending = s.pending ∧ (cabBlock c samples s).mem = s.mem ∧
    (cabBlock c samples s).host = s.host ∧ (cabBlock c samples s).dir = s.dir ∧
    (cabBlock c samples s).load = s.load ∧ (cabBlock c samples s).beds = s.beds ∧
    (cabBlock c samples s).mixes = s.mixes ∧ (cabBlock c samples s).freeCount = s.freeCount ∧
    (cabBlock c samples s).steam = s.steam ∧ (cabBlock c samples s).roster = s.roster ∧
    (cabBlock c samples s).loops = s.loops ∧ (cabBlock c samples s).rosterLoaded = s.rosterLoaded ∧
    (cabBlock c samples s).yardStop = s.yardStop ∧ (cabBlock c samples s).cranesLoaded = s.cranesLoaded ∧
    (cabBlock c samples s).clockMs = s.clockMs := by
  simp [cabBlock]

@[simp] theorem cleanBlock_keeps (c : Fin 2) (block : List RxChar) (s : State) :
    (cleanBlock c block s).pending = s.pending ∧ (cleanBlock c block s).mem = s.mem ∧
    (cleanBlock c block s).host = s.host ∧ (cleanBlock c block s).dir = s.dir ∧
    (cleanBlock c block s).load = s.load ∧ (cleanBlock c block s).beds = s.beds ∧
    (cleanBlock c block s).mixes = s.mixes ∧ (cleanBlock c block s).freeCount = s.freeCount ∧
    (cleanBlock c block s).steam = s.steam ∧ (cleanBlock c block s).roster = s.roster ∧
    (cleanBlock c block s).loops = s.loops ∧ (cleanBlock c block s).rosterLoaded = s.rosterLoaded ∧
    (cleanBlock c block s).yardStop = s.yardStop ∧ (cleanBlock c block s).cranesLoaded = s.cranesLoaded ∧
    (cleanBlock c block s).clockMs = s.clockMs := by
  simp [cleanBlock]

@[simp] theorem quietExpiry_keeps (c : Fin 2) (s : State) :
    (quietExpiry c s).pending = s.pending ∧ (quietExpiry c s).mem = s.mem ∧ (quietExpiry c s).host = s.host ∧
    (quietExpiry c s).dir = s.dir ∧ (quietExpiry c s).load = s.load ∧ (quietExpiry c s).beds = s.beds ∧
    (quietExpiry c s).mixes = s.mixes ∧ (quietExpiry c s).freeCount = s.freeCount ∧
    (quietExpiry c s).steam = s.steam ∧ (quietExpiry c s).roster = s.roster ∧ (quietExpiry c s).loops = s.loops ∧
    (quietExpiry c s).rosterLoaded = s.rosterLoaded ∧ (quietExpiry c s).stock = s.stock ∧
    (quietExpiry c s).yardStop = s.yardStop ∧ (quietExpiry c s).cranesLoaded = s.cranesLoaded ∧
    (quietExpiry c s).clockMs = s.clockMs := by
  simp only [quietExpiry]
  (repeat' split) <;> simp

@[simp] theorem lostExpiry_keeps (c : Fin 2) (s : State) :
    (lostExpiry c s).pending = s.pending ∧ (lostExpiry c s).mem = s.mem ∧ (lostExpiry c s).host = s.host ∧
    (lostExpiry c s).dir = s.dir ∧ (lostExpiry c s).load = s.load ∧ (lostExpiry c s).beds = s.beds ∧
    (lostExpiry c s).mixes = s.mixes ∧ (lostExpiry c s).freeCount = s.freeCount ∧ (lostExpiry c s).steam = s.steam ∧
    (lostExpiry c s).roster = s.roster ∧ (lostExpiry c s).loops = s.loops ∧
    (lostExpiry c s).rosterLoaded = s.rosterLoaded ∧ (lostExpiry c s).yardStop = s.yardStop ∧
    (lostExpiry c s).cranesLoaded = s.cranesLoaded ∧ (lostExpiry c s).clockMs = s.clockMs := by
  simp only [lostExpiry]
  (repeat' split) <;> simp

@[simp] theorem acceptOrder_keeps (o : Order) (kind : MoveKind) (i : Fin 16) (s : State) :
    (acceptOrder o kind i s).pending = s.pending ∧ (acceptOrder o kind i s).mem = s.mem ∧
    (acceptOrder o kind i s).host = s.host ∧ (acceptOrder o kind i s).dir = s.dir ∧
    (acceptOrder o kind i s).load = s.load ∧ (acceptOrder o kind i s).beds = s.beds ∧
    (acceptOrder o kind i s).mixes = s.mixes ∧ (acceptOrder o kind i s).freeCount = s.freeCount ∧
    (acceptOrder o kind i s).steam = s.steam ∧ (acceptOrder o kind i s).roster = s.roster ∧
    (acceptOrder o kind i s).loops = s.loops ∧ (acceptOrder o kind i s).rosterLoaded = s.rosterLoaded ∧
    (acceptOrder o kind i s).yardStop = s.yardStop ∧ (acceptOrder o kind i s).cranesLoaded = s.cranesLoaded ∧
    (acceptOrder o kind i s).clockMs = s.clockMs := by
  simp only [acceptOrder]
  (repeat' split) <;> simp

@[simp] theorem setIntake_keeps (k : Option Intake) (s : State) :
    (setIntake k s).pending = s.pending ∧ (setIntake k s).mem = s.mem ∧ (setIntake k s).host = s.host ∧
    (setIntake k s).path = s.path ∧ (setIntake k s).dir = s.dir ∧ (setIntake k s).load = s.load ∧
    (setIntake k s).beds = s.beds ∧ (setIntake k s).mixes = s.mixes ∧ (setIntake k s).freeCount = s.freeCount ∧
    (setIntake k s).steam = s.steam ∧ (setIntake k s).roster = s.roster ∧ (setIntake k s).loops = s.loops ∧
    (setIntake k s).rosterLoaded = s.rosterLoaded ∧ (setIntake k s).stock = s.stock ∧
    (setIntake k s).cranes = s.cranes ∧ (setIntake k s).yardStop = s.yardStop ∧
    (setIntake k s).cranesLoaded = s.cranesLoaded ∧ (setIntake k s).clockMs = s.clockMs := by
  simp only [setIntake]
  simp

@[simp] theorem formIntake_keeps (k : Intake) (s : State) :
    (formIntake k s).pending = s.pending ∧ (formIntake k s).mem = s.mem ∧ (formIntake k s).host = s.host ∧
    (formIntake k s).dir = s.dir ∧ (formIntake k s).load = s.load ∧ (formIntake k s).beds = s.beds ∧
    (formIntake k s).mixes = s.mixes ∧ (formIntake k s).freeCount = s.freeCount ∧ (formIntake k s).steam = s.steam ∧
    (formIntake k s).roster = s.roster ∧ (formIntake k s).loops = s.loops ∧
    (formIntake k s).rosterLoaded = s.rosterLoaded ∧ (formIntake k s).stock = s.stock ∧
    (formIntake k s).cranes = s.cranes ∧ (formIntake k s).yardStop = s.yardStop ∧
    (formIntake k s).cranesLoaded = s.cranesLoaded ∧ (formIntake k s).clockMs = s.clockMs := by
  simp only [formIntake]
  simp

@[simp] theorem intakePosted_keeps (entry : Nat) (failed : Bool) (s : State) :
    (intakePosted entry failed s).pending = s.pending ∧ (intakePosted entry failed s).mem = s.mem ∧
    (intakePosted entry failed s).host = s.host ∧ (intakePosted entry failed s).dir = s.dir ∧
    (intakePosted entry failed s).load = s.load ∧ (intakePosted entry failed s).beds = s.beds ∧
    (intakePosted entry failed s).mixes = s.mixes ∧ (intakePosted entry failed s).freeCount = s.freeCount ∧
    (intakePosted entry failed s).steam = s.steam ∧ (intakePosted entry failed s).roster = s.roster ∧
    (intakePosted entry failed s).loops = s.loops ∧ (intakePosted entry failed s).rosterLoaded = s.rosterLoaded ∧
    (intakePosted entry failed s).stock = s.stock ∧ (intakePosted entry failed s).cranes = s.cranes ∧
    (intakePosted entry failed s).yardStop = s.yardStop ∧
    (intakePosted entry failed s).cranesLoaded = s.cranesLoaded ∧ (intakePosted entry failed s).clockMs = s.clockMs := by
  simp only [intakePosted]
  (repeat' split) <;> simp

@[simp] theorem intakeExamined_keeps (data : Option (List Word)) (s : State) :
    (intakeExamined data s).pending = s.pending ∧ (intakeExamined data s).mem = s.mem ∧
    (intakeExamined data s).host = s.host ∧ (intakeExamined data s).dir = s.dir ∧
    (intakeExamined data s).load = s.load ∧ (intakeExamined data s).beds = s.beds ∧
    (intakeExamined data s).mixes = s.mixes ∧ (intakeExamined data s).freeCount = s.freeCount ∧
    (intakeExamined data s).steam = s.steam ∧ (intakeExamined data s).roster = s.roster ∧
    (intakeExamined data s).loops = s.loops ∧ (intakeExamined data s).rosterLoaded = s.rosterLoaded ∧
    (intakeExamined data s).yardStop = s.yardStop ∧ (intakeExamined data s).cranesLoaded = s.cranesLoaded ∧
    (intakeExamined data s).clockMs = s.clockMs := by
  simp only [intakeExamined]
  (repeat' split) <;> simp

@[simp] theorem intakeGroup_keeps (s : State) :
    (intakeGroup s).1.pending = s.pending ∧ (intakeGroup s).1.mem = s.mem ∧ (intakeGroup s).1.host = s.host ∧
    (intakeGroup s).1.path = s.path ∧ (intakeGroup s).1.dir = s.dir ∧ (intakeGroup s).1.load = s.load ∧
    (intakeGroup s).1.beds = s.beds ∧ (intakeGroup s).1.mixes = s.mixes ∧
    (intakeGroup s).1.freeCount = s.freeCount ∧ (intakeGroup s).1.steam = s.steam ∧
    (intakeGroup s).1.roster = s.roster ∧ (intakeGroup s).1.loops = s.loops ∧
    (intakeGroup s).1.rosterLoaded = s.rosterLoaded ∧ (intakeGroup s).1.stock = s.stock ∧
    (intakeGroup s).1.cranes = s.cranes ∧ (intakeGroup s).1.yardStop = s.yardStop ∧
    (intakeGroup s).1.cranesLoaded = s.cranesLoaded ∧ (intakeGroup s).1.clockMs = s.clockMs := by
  simp only [intakeGroup]
  (repeat' split) <;> simp

@[simp] theorem intakeDone_keeps (s : State) :
    (intakeDone s).pending = s.pending ∧ (intakeDone s).mem = s.mem ∧ (intakeDone s).host = s.host ∧
    (intakeDone s).path = s.path ∧ (intakeDone s).dir = s.dir ∧ (intakeDone s).load = s.load ∧
    (intakeDone s).beds = s.beds ∧ (intakeDone s).mixes = s.mixes ∧ (intakeDone s).freeCount = s.freeCount ∧
    (intakeDone s).steam = s.steam ∧ (intakeDone s).roster = s.roster ∧ (intakeDone s).loops = s.loops ∧
    (intakeDone s).rosterLoaded = s.rosterLoaded ∧ (intakeDone s).stock = s.stock ∧
    (intakeDone s).cranes = s.cranes ∧ (intakeDone s).yardStop = s.yardStop ∧
    (intakeDone s).cranesLoaded = s.cranesLoaded ∧ (intakeDone s).clockMs = s.clockMs := by
  simp only [intakeDone]
  (repeat' split) <;> simp

@[simp] theorem refuseControl_keeps (i : Fin 16) (code : CtrlCode) (result : Code) (s : State) :
    (refuseControl i code result s).pending = s.pending ∧ (refuseControl i code result s).mem = s.mem ∧
    (refuseControl i code result s).host = s.host ∧ (refuseControl i code result s).dir = s.dir ∧
    (refuseControl i code result s).load = s.load ∧ (refuseControl i code result s).beds = s.beds ∧
    (refuseControl i code result s).mixes = s.mixes ∧ (refuseControl i code result s).freeCount = s.freeCount ∧
    (refuseControl i code result s).steam = s.steam ∧ (refuseControl i code result s).roster = s.roster ∧
    (refuseControl i code result s).loops = s.loops ∧
    (refuseControl i code result s).rosterLoaded = s.rosterLoaded ∧
    (refuseControl i code result s).stock = s.stock ∧ (refuseControl i code result s).cranes = s.cranes ∧
    (refuseControl i code result s).yardStop = s.yardStop ∧
    (refuseControl i code result s).cranesLoaded = s.cranesLoaded ∧
    (refuseControl i code result s).clockMs = s.clockMs := by
  simp only [refuseControl]
  simp

@[simp] theorem controlPosted_keeps (i : Fin 16) (code : CtrlCode) (failed : Bool) (s : State) :
    (controlPosted i code failed s).pending = s.pending ∧ (controlPosted i code failed s).mem = s.mem ∧
    (controlPosted i code failed s).host = s.host ∧ (controlPosted i code failed s).dir = s.dir ∧
    (controlPosted i code failed s).load = s.load ∧ (controlPosted i code failed s).beds = s.beds ∧
    (controlPosted i code failed s).mixes = s.mixes ∧ (controlPosted i code failed s).freeCount = s.freeCount ∧
    (controlPosted i code failed s).steam = s.steam ∧ (controlPosted i code failed s).roster = s.roster ∧
    (controlPosted i code failed s).loops = s.loops ∧
    (controlPosted i code failed s).rosterLoaded = s.rosterLoaded ∧
    (controlPosted i code failed s).yardStop = s.yardStop ∧
    (controlPosted i code failed s).cranesLoaded = s.cranesLoaded ∧
    (controlPosted i code failed s).clockMs = s.clockMs := by
  simp only [controlPosted]
  (repeat' split) <;> simp

@[simp] theorem redirectExamined_keeps (i : Fin 16) (data : Option (List Word)) (s : State) :
    (redirectExamined i data s).pending = s.pending ∧ (redirectExamined i data s).mem = s.mem ∧
    (redirectExamined i data s).host = s.host ∧ (redirectExamined i data s).dir = s.dir ∧
    (redirectExamined i data s).load = s.load ∧ (redirectExamined i data s).beds = s.beds ∧
    (redirectExamined i data s).mixes = s.mixes ∧ (redirectExamined i data s).freeCount = s.freeCount ∧
    (redirectExamined i data s).steam = s.steam ∧ (redirectExamined i data s).roster = s.roster ∧
    (redirectExamined i data s).loops = s.loops ∧ (redirectExamined i data s).rosterLoaded = s.rosterLoaded ∧
    (redirectExamined i data s).stock = s.stock ∧ (redirectExamined i data s).cranes = s.cranes ∧
    (redirectExamined i data s).yardStop = s.yardStop ∧ (redirectExamined i data s).cranesLoaded = s.cranesLoaded ∧
    (redirectExamined i data s).clockMs = s.clockMs := by
  simp only [redirectExamined]
  (repeat' split) <;> simp

@[simp] theorem refusedControlGroup_keeps (i : Fin 16) (r : CtrlRequest) (s : State) :
    (refusedControlGroup i r s).1.pending = s.pending ∧ (refusedControlGroup i r s).1.mem = s.mem ∧
    (refusedControlGroup i r s).1.host = s.host ∧ (refusedControlGroup i r s).1.path = s.path ∧
    (refusedControlGroup i r s).1.dir = s.dir ∧ (refusedControlGroup i r s).1.load = s.load ∧
    (refusedControlGroup i r s).1.beds = s.beds ∧ (refusedControlGroup i r s).1.mixes = s.mixes ∧
    (refusedControlGroup i r s).1.freeCount = s.freeCount ∧ (refusedControlGroup i r s).1.steam = s.steam ∧
    (refusedControlGroup i r s).1.roster = s.roster ∧ (refusedControlGroup i r s).1.loops = s.loops ∧
    (refusedControlGroup i r s).1.rosterLoaded = s.rosterLoaded ∧ (refusedControlGroup i r s).1.stock = s.stock ∧
    (refusedControlGroup i r s).1.cranes = s.cranes ∧ (refusedControlGroup i r s).1.yardStop = s.yardStop ∧
    (refusedControlGroup i r s).1.cranesLoaded = s.cranesLoaded ∧ (refusedControlGroup i r s).1.clockMs = s.clockMs := by
  simp only [refusedControlGroup]
  simp

@[simp] theorem ctrlResultGroup_keeps (i : Fin 16) (s : State) :
    (ctrlResultGroup i s).1.pending = s.pending ∧ (ctrlResultGroup i s).1.mem = s.mem ∧
    (ctrlResultGroup i s).1.host = s.host ∧ (ctrlResultGroup i s).1.path = s.path ∧
    (ctrlResultGroup i s).1.dir = s.dir ∧ (ctrlResultGroup i s).1.load = s.load ∧
    (ctrlResultGroup i s).1.beds = s.beds ∧ (ctrlResultGroup i s).1.mixes = s.mixes ∧
    (ctrlResultGroup i s).1.freeCount = s.freeCount ∧ (ctrlResultGroup i s).1.steam = s.steam ∧
    (ctrlResultGroup i s).1.roster = s.roster ∧ (ctrlResultGroup i s).1.loops = s.loops ∧
    (ctrlResultGroup i s).1.rosterLoaded = s.rosterLoaded ∧ (ctrlResultGroup i s).1.stock = s.stock ∧
    (ctrlResultGroup i s).1.cranes = s.cranes ∧ (ctrlResultGroup i s).1.yardStop = s.yardStop ∧
    (ctrlResultGroup i s).1.cranesLoaded = s.cranesLoaded ∧ (ctrlResultGroup i s).1.clockMs = s.clockMs := by
  simp only [ctrlResultGroup]
  (repeat' split) <;> simp

@[simp] theorem redirectedMove_keeps (i : Fin 16) (s : State) :
    (redirectedMove i s).pending = s.pending ∧ (redirectedMove i s).mem = s.mem ∧
    (redirectedMove i s).host = s.host ∧ (redirectedMove i s).dir = s.dir ∧ (redirectedMove i s).load = s.load ∧
    (redirectedMove i s).beds = s.beds ∧ (redirectedMove i s).mixes = s.mixes ∧
    (redirectedMove i s).freeCount = s.freeCount ∧ (redirectedMove i s).steam = s.steam ∧
    (redirectedMove i s).roster = s.roster ∧ (redirectedMove i s).loops = s.loops ∧
    (redirectedMove i s).rosterLoaded = s.rosterLoaded ∧ (redirectedMove i s).stock = s.stock ∧
    (redirectedMove i s).yardStop = s.yardStop ∧ (redirectedMove i s).cranesLoaded = s.cranesLoaded ∧
    (redirectedMove i s).clockMs = s.clockMs := by
  simp only [redirectedMove]
  (repeat' split) <;> simp

@[simp] theorem redirectGroup_keeps (i : Fin 16) (s : State) :
    (redirectGroup i s).1.pending = s.pending ∧ (redirectGroup i s).1.mem = s.mem ∧
    (redirectGroup i s).1.host = s.host ∧ (redirectGroup i s).1.dir = s.dir ∧ (redirectGroup i s).1.load = s.load ∧
    (redirectGroup i s).1.beds = s.beds ∧ (redirectGroup i s).1.mixes = s.mixes ∧
    (redirectGroup i s).1.freeCount = s.freeCount ∧ (redirectGroup i s).1.steam = s.steam ∧
    (redirectGroup i s).1.roster = s.roster ∧ (redirectGroup i s).1.loops = s.loops ∧
    (redirectGroup i s).1.rosterLoaded = s.rosterLoaded ∧ (redirectGroup i s).1.yardStop = s.yardStop ∧
    (redirectGroup i s).1.cranesLoaded = s.cranesLoaded ∧ (redirectGroup i s).1.clockMs = s.clockMs := by
  simp only [redirectGroup]
  (repeat' split) <;> simp

@[simp] theorem controlDone_keeps (i : Fin 16) (s : State) :
    (controlDone i s).pending = s.pending ∧ (controlDone i s).mem = s.mem ∧ (controlDone i s).host = s.host ∧
    (controlDone i s).path = s.path ∧ (controlDone i s).dir = s.dir ∧ (controlDone i s).load = s.load ∧
    (controlDone i s).beds = s.beds ∧ (controlDone i s).mixes = s.mixes ∧
    (controlDone i s).freeCount = s.freeCount ∧ (controlDone i s).steam = s.steam ∧
    (controlDone i s).roster = s.roster ∧ (controlDone i s).loops = s.loops ∧
    (controlDone i s).rosterLoaded = s.rosterLoaded ∧ (controlDone i s).stock = s.stock ∧
    (controlDone i s).cranes = s.cranes ∧ (controlDone i s).yardStop = s.yardStop ∧
    (controlDone i s).cranesLoaded = s.cranesLoaded ∧ (controlDone i s).clockMs = s.clockMs := by
  simp only [controlDone]
  simp

@[simp] theorem movesSafe_keeps (s : State) :
    (movesSafe s).pending = s.pending ∧ (movesSafe s).mem = s.mem ∧ (movesSafe s).host = s.host ∧
    (movesSafe s).dir = s.dir ∧ (movesSafe s).load = s.load ∧ (movesSafe s).beds = s.beds ∧
    (movesSafe s).mixes = s.mixes ∧ (movesSafe s).freeCount = s.freeCount ∧ (movesSafe s).steam = s.steam ∧
    (movesSafe s).roster = s.roster ∧ (movesSafe s).loops = s.loops ∧ (movesSafe s).rosterLoaded = s.rosterLoaded ∧
    (movesSafe s).stock = s.stock ∧ (movesSafe s).yardStop = s.yardStop ∧
    (movesSafe s).cranesLoaded = s.cranesLoaded ∧ (movesSafe s).clockMs = s.clockMs := by
  simp only [movesSafe]
  simp

end Sys2Proof.Machine
end

