-- ==== Sys2Proof/Laws/Groups.lean ====
section
/-! SUPPORT. What each operation of Machine/Groups.lean leaves as it was: the fields of State it never writes. -/

namespace Sys2Proof.Machine

@[simp] theorem form_keeps (j : Job) (s : State) :
    (form j s).1.pending = s.pending ∧ (form j s).1.mem = s.mem ∧ (form j s).1.host = s.host ∧
    (form j s).1.dir = s.dir ∧ (form j s).1.load = s.load ∧ (form j s).1.freeCount = s.freeCount ∧
    (form j s).1.steam = s.steam ∧ (form j s).1.roster = s.roster ∧ (form j s).1.loops = s.loops ∧
    (form j s).1.rosterLoaded = s.rosterLoaded ∧ (form j s).1.yardStop = s.yardStop ∧
    (form j s).1.cranesLoaded = s.cranesLoaded ∧ (form j s).1.clockMs = s.clockMs := by
  simp only [form]
  (repeat' split) <;> first
    | (simp; done)
    | (rename_i hd; have k := takeRefusedGroup_keeps _ _ _ hd; simp at k; simp [k])

@[simp] theorem enterGroup_keeps (atHead : Bool) (g : Group) (s : State) :
    (enterGroup atHead g s).pending = s.pending ∧ (enterGroup atHead g s).mem = s.mem ∧
    (enterGroup atHead g s).host = s.host ∧ (enterGroup atHead g s).dir = s.dir ∧
    (enterGroup atHead g s).load = s.load ∧ (enterGroup atHead g s).beds = s.beds ∧
    (enterGroup atHead g s).mixes = s.mixes ∧ (enterGroup atHead g s).freeCount = s.freeCount ∧
    (enterGroup atHead g s).steam = s.steam ∧ (enterGroup atHead g s).roster = s.roster ∧
    (enterGroup atHead g s).loops = s.loops ∧ (enterGroup atHead g s).rosterLoaded = s.rosterLoaded ∧
    (enterGroup atHead g s).stock = s.stock ∧ (enterGroup atHead g s).cranes = s.cranes ∧
    (enterGroup atHead g s).yardStop = s.yardStop ∧ (enterGroup atHead g s).cranesLoaded = s.cranesLoaded ∧
    (enterGroup atHead g s).moves = s.moves ∧ (enterGroup atHead g s).clockMs = s.clockMs := by
  simp only [enterGroup]
  (repeat' split) <;> simp

@[simp] theorem handed_keeps (j : Job) (s : State) :
    (handed j s).pending = s.pending ∧ (handed j s).mem = s.mem ∧ (handed j s).host = s.host ∧
    (handed j s).dir = s.dir ∧ (handed j s).load = s.load ∧ (handed j s).freeCount = s.freeCount ∧
    (handed j s).steam = s.steam ∧ (handed j s).roster = s.roster ∧ (handed j s).loops = s.loops ∧
    (handed j s).rosterLoaded = s.rosterLoaded ∧ (handed j s).yardStop = s.yardStop ∧
    (handed j s).cranesLoaded = s.cranesLoaded ∧ (handed j s).clockMs = s.clockMs := by
  simp only [handed]
  split <;> simp

@[simp] theorem settleJob_keeps (yields : Bool) (j : Job) (s : State) :
    (settleJob yields j s).pending = s.pending ∧ (settleJob yields j s).mem = s.mem ∧
    (settleJob yields j s).host = s.host ∧ (settleJob yields j s).dir = s.dir ∧ (settleJob yields j s).load = s.load ∧
    (settleJob yields j s).freeCount = s.freeCount ∧ (settleJob yields j s).steam = s.steam ∧
    (settleJob yields j s).roster = s.roster ∧ (settleJob yields j s).loops = s.loops ∧
    (settleJob yields j s).rosterLoaded = s.rosterLoaded ∧ (settleJob yields j s).yardStop = s.yardStop ∧
    (settleJob yields j s).cranesLoaded = s.cranesLoaded ∧ (settleJob yields j s).clockMs = s.clockMs := by
  simp only [settleJob]
  (repeat' split) <;> simp

@[simp] theorem tryJob_keeps (j : Job) (s : State) :
    (tryJob j s).pending = s.pending ∧ (tryJob j s).mem = s.mem ∧ (tryJob j s).host = s.host ∧
    (tryJob j s).dir = s.dir ∧ (tryJob j s).load = s.load ∧ (tryJob j s).freeCount = s.freeCount ∧
    (tryJob j s).steam = s.steam ∧ (tryJob j s).roster = s.roster ∧ (tryJob j s).loops = s.loops ∧
    (tryJob j s).rosterLoaded = s.rosterLoaded ∧ (tryJob j s).yardStop = s.yardStop ∧
    (tryJob j s).cranesLoaded = s.cranesLoaded ∧ (tryJob j s).clockMs = s.clockMs := by
  simp only [tryJob]
  simp

@[simp] theorem tryOutbox_keeps (n : Nat) (s : State) :
    (tryOutbox n s).pending = s.pending ∧ (tryOutbox n s).mem = s.mem ∧ (tryOutbox n s).host = s.host ∧
    (tryOutbox n s).dir = s.dir ∧ (tryOutbox n s).load = s.load ∧ (tryOutbox n s).freeCount = s.freeCount ∧
    (tryOutbox n s).steam = s.steam ∧ (tryOutbox n s).roster = s.roster ∧ (tryOutbox n s).loops = s.loops ∧
    (tryOutbox n s).rosterLoaded = s.rosterLoaded ∧ (tryOutbox n s).yardStop = s.yardStop ∧
    (tryOutbox n s).cranesLoaded = s.cranesLoaded ∧ (tryOutbox n s).clockMs = s.clockMs := by
  induction n generalizing s with
  | zero => simp [tryOutbox]
  | succ n ih =>
    simp only [tryOutbox]
    split <;> simp [ih]

@[simp] theorem retryJob_keeps (j : Job) (s : State) :
    (retryJob j s).pending = s.pending ∧ (retryJob j s).mem = s.mem ∧ (retryJob j s).host = s.host ∧
    (retryJob j s).dir = s.dir ∧ (retryJob j s).load = s.load ∧ (retryJob j s).freeCount = s.freeCount ∧
    (retryJob j s).steam = s.steam ∧ (retryJob j s).roster = s.roster ∧ (retryJob j s).loops = s.loops ∧
    (retryJob j s).rosterLoaded = s.rosterLoaded ∧ (retryJob j s).yardStop = s.yardStop ∧
    (retryJob j s).cranesLoaded = s.cranesLoaded ∧ (retryJob j s).clockMs = s.clockMs := by
  simp only [retryJob]
  simp

/-- A party served may be the host's WRITE: `host` is not among what stays. -/
@[simp] theorem serve_keeps (p : Party) (s : State) :
    (serve p s).pending = s.pending ∧ (serve p s).mem = s.mem ∧ (serve p s).dir = s.dir ∧
    (serve p s).load = s.load ∧ (serve p s).freeCount = s.freeCount ∧ (serve p s).steam = s.steam ∧
    (serve p s).roster = s.roster ∧ (serve p s).loops = s.loops ∧ (serve p s).rosterLoaded = s.rosterLoaded ∧
    (serve p s).yardStop = s.yardStop ∧ (serve p s).cranesLoaded = s.cranesLoaded ∧
    (serve p s).clockMs = s.clockMs := by
  simp only [serve]
  (repeat' split) <;> simp

@[simp] theorem handSlots_keeps (n : Nat) (s : State) :
    (handSlots n s).pending = s.pending ∧ (handSlots n s).mem = s.mem ∧ (handSlots n s).dir = s.dir ∧
    (handSlots n s).load = s.load ∧ (handSlots n s).freeCount = s.freeCount ∧ (handSlots n s).steam = s.steam ∧
    (handSlots n s).roster = s.roster ∧ (handSlots n s).loops = s.loops ∧
    (handSlots n s).rosterLoaded = s.rosterLoaded ∧ (handSlots n s).yardStop = s.yardStop ∧
    (handSlots n s).cranesLoaded = s.cranesLoaded ∧ (handSlots n s).clockMs = s.clockMs := by
  induction n generalizing s with
  | zero => simp [handSlots]
  | succ n ih =>
    simp only [handSlots]
    split <;> simp [ih]

@[simp] theorem handSlot_keeps (s : State) :
    (handSlot s).pending = s.pending ∧ (handSlot s).mem = s.mem ∧ (handSlot s).dir = s.dir ∧
    (handSlot s).load = s.load ∧ (handSlot s).freeCount = s.freeCount ∧ (handSlot s).steam = s.steam ∧
    (handSlot s).roster = s.roster ∧ (handSlot s).loops = s.loops ∧ (handSlot s).rosterLoaded = s.rosterLoaded ∧
    (handSlot s).yardStop = s.yardStop ∧ (handSlot s).cranesLoaded = s.cranesLoaded ∧
    (handSlot s).clockMs = s.clockMs := by
  simp [handSlot]

@[simp] theorem admitKept_keeps (s : State) :
    (admitKept s).pending = s.pending ∧ (admitKept s).mem = s.mem ∧ (admitKept s).dir = s.dir ∧
    (admitKept s).load = s.load ∧ (admitKept s).freeCount = s.freeCount ∧ (admitKept s).steam = s.steam ∧
    (admitKept s).roster = s.roster ∧ (admitKept s).loops = s.loops ∧ (admitKept s).rosterLoaded = s.rosterLoaded ∧
    (admitKept s).yardStop = s.yardStop ∧ (admitKept s).cranesLoaded = s.cranesLoaded ∧
    (admitKept s).clockMs = s.clockMs := by
  simp only [admitKept]
  split <;> simp

@[simp] theorem enlistJob_keeps (j : Job) (s : State) :
    (enlistJob s j).pending = s.pending ∧ (enlistJob s j).mem = s.mem ∧ (enlistJob s j).host = s.host ∧
    (enlistJob s j).dir = s.dir ∧ (enlistJob s j).load = s.load ∧ (enlistJob s j).notices = s.notices ∧
    (enlistJob s j).beds = s.beds ∧ (enlistJob s j).mixes = s.mixes ∧ (enlistJob s j).freeCount = s.freeCount ∧
    (enlistJob s j).steam = s.steam ∧ (enlistJob s j).roster = s.roster ∧ (enlistJob s j).loops = s.loops ∧
    (enlistJob s j).rosterLoaded = s.rosterLoaded ∧ (enlistJob s j).stock = s.stock ∧
    (enlistJob s j).cranes = s.cranes ∧ (enlistJob s j).yardStop = s.yardStop ∧
    (enlistJob s j).cranesLoaded = s.cranesLoaded ∧ (enlistJob s j).moves = s.moves ∧
    (enlistJob s j).clockMs = s.clockMs := by
  simp only [enlistJob, State.joinSlotWait]
  (repeat' split) <;> simp

@[simp] theorem enlistKept_keeps (s : State) :
    (enlistKept s).pending = s.pending ∧ (enlistKept s).mem = s.mem ∧ (enlistKept s).host = s.host ∧
    (enlistKept s).dir = s.dir ∧ (enlistKept s).load = s.load ∧ (enlistKept s).notices = s.notices ∧
    (enlistKept s).beds = s.beds ∧ (enlistKept s).mixes = s.mixes ∧ (enlistKept s).freeCount = s.freeCount ∧
    (enlistKept s).steam = s.steam ∧ (enlistKept s).roster = s.roster ∧ (enlistKept s).loops = s.loops ∧
    (enlistKept s).rosterLoaded = s.rosterLoaded ∧ (enlistKept s).stock = s.stock ∧
    (enlistKept s).cranes = s.cranes ∧ (enlistKept s).yardStop = s.yardStop ∧
    (enlistKept s).cranesLoaded = s.cranesLoaded ∧ (enlistKept s).moves = s.moves ∧
    (enlistKept s).clockMs = s.clockMs := by
  simp only [enlistKept]
  refine ⟨foldl_pending _ ?_ _ _, foldl_mem _ ?_ _ _, foldl_host _ ?_ _ _, foldl_dir _ ?_ _ _, foldl_load _ ?_ _ _, foldl_notices _ ?_ _ _, foldl_beds _ ?_ _ _, foldl_mixes _ ?_ _ _, foldl_freeCount _ ?_ _ _, foldl_steam _ ?_ _ _, foldl_roster _ ?_ _ _, foldl_loops _ ?_ _ _, foldl_rosterLoaded _ ?_ _ _, foldl_stock _ ?_ _ _, foldl_cranes _ ?_ _ _, foldl_yardStop _ ?_ _ _, foldl_cranesLoaded _ ?_ _ _, foldl_moves _ ?_ _ _, foldl_clockMs _ ?_ _ _⟩ <;>
    (intro s x; simp)

@[simp] theorem groupDone_keeps (c : Completion) (s : State) :
    (groupDone c s).pending = s.pending ∧ (groupDone c s).mem = s.mem ∧ (groupDone c s).host = s.host ∧
    (groupDone c s).dir = s.dir ∧ (groupDone c s).load = s.load ∧ (groupDone c s).steam = s.steam ∧
    (groupDone c s).roster = s.roster ∧ (groupDone c s).loops = s.loops ∧
    (groupDone c s).rosterLoaded = s.rosterLoaded ∧ (groupDone c s).cranes = s.cranes ∧
    (groupDone c s).yardStop = s.yardStop ∧ (groupDone c s).cranesLoaded = s.cranesLoaded ∧
    (groupDone c s).clockMs = s.clockMs := by
  simp only [groupDone]
  (repeat' split) <;> simp

/-- The port is given to the arbiter, or it waits and nothing changes. -/
theorem givePort_cases (s : State) : givePort s = s ∨ givePort s = arbitrate s := by
  simp only [givePort]
  split
  · exact Or.inl rfl
  · exact Or.inr rfl

@[simp] theorem givePort_keeps (s : State) :
    (givePort s).pending = s.pending ∧ (givePort s).mem = s.mem ∧ (givePort s).dir = s.dir ∧
    (givePort s).load = s.load ∧ (givePort s).beds = s.beds ∧ (givePort s).mixes = s.mixes ∧
    (givePort s).freeCount = s.freeCount ∧ (givePort s).steam = s.steam ∧ (givePort s).roster = s.roster ∧
    (givePort s).loops = s.loops ∧ (givePort s).rosterLoaded = s.rosterLoaded ∧ (givePort s).stock = s.stock ∧
    (givePort s).cranes = s.cranes ∧ (givePort s).yardStop = s.yardStop ∧
    (givePort s).cranesLoaded = s.cranesLoaded ∧ (givePort s).moves = s.moves ∧ (givePort s).clockMs = s.clockMs := by
  rcases givePort_cases s with h | h <;> rw [h] <;> simp

/-- With no event due the port is given to the arbiter. -/
theorem givePort_of_none_due (s : State) (h : s.eventDue = false) : givePort s = arbitrate s := by
  simp [givePort, State.portAwaits, h]

/-- While an own item is under way the port waits for nothing. -/
theorem givePort_within_item (s : State) (h : s.path.current.isSome = true) : givePort s = arbitrate s := by
  have k : s.path.current.isNone = false := by
    cases e : s.path.current <;> simp_all
  simp [givePort, State.portAwaits, k]

/-- With no candidate on either stream the port stays free. -/
theorem givePort_idle (s : State) (hq : s.path.queue = []) (hc : s.path.current = none) (hh : s.hostCandidate = false) :
    givePort s = s := by
  rcases givePort_cases s with h | h
  · exact h
  · rw [h]
    simp [arbitrate, hh, ownIssue, hc, hq]

/-- With a host transfer taken and not yet issued the port waits for nothing. -/
theorem givePort_of_candidate (s : State) (h : s.hostCandidate = true) : givePort s = arbitrate s := by
  simp [givePort, State.portAwaits, h]

theorem ownIssue_port (s t : State) (h : ownIssue s = some t) : t.path.port ≠ .free := by
  simp only [ownIssue] at h
  (repeat' split at h) <;> first | (cases h; done) | (cases h; simp [State.withPath])

/-- With a candidate on the host stream the arbiter leaves the port busy. -/
theorem arbitrate_serves (s : State) (h : s.hostCandidate = true) : (arbitrate s).path.port ≠ .free := by
  have issue : (hostIssue s).path.port ≠ .free := by
    simp only [State.hostCandidate] at h
    simp only [hostIssue]
    split <;> simp_all
  by_cases free : s.path.port = .free
  · cases own : ownIssue s with
    | none => simpa [arbitrate, free, h, own] using issue
    | some t =>
      by_cases last : s.path.lastServed = .host
      · simpa [arbitrate, free, h, own, last] using ownIssue_port s t own
      · simpa [arbitrate, free, h, own, last] using issue
  · simp [arbitrate, free]

/-- The port is given away with a host transfer taken: whatever the stream served last, it is not left free (R42, R97). -/
theorem givePort_serves (s : State) (h : s.hostCandidate = true) : (givePort s).path.port ≠ .free := by
  rw [givePort_of_candidate s h]
  exact arbitrate_serves s h

/-- With no group answered, no read returned, no event kept and no transfer WAITING, no event is due. -/
theorem eventDue_calm (s : State) (ha : s.path.answered = []) (hr : s.path.returned = []) (hk : s.path.kept = [])
    (hu : ∀ u, s.host.up = some u → u.stage ≠ .waiting) : s.eventDue = false := by
  simp only [State.eventDue, ha, hr, hk, List.isEmpty_nil, Bool.not_true, List.any_nil, Bool.or_self, Bool.false_or,
    Bool.and_eq_false_iff]
  right
  split
  · rename_i u e
    simp [State.waitsFree, hu u e]
  · rfl

@[simp] theorem finish_keeps (s : State) :
    (finish s).pending = s.pending ∧ (finish s).mem = s.mem ∧ (finish s).steam = s.steam ∧
    (finish s).roster = s.roster ∧ (finish s).loops = s.loops ∧ (finish s).yardStop = s.yardStop ∧
    (finish s).load = s.load ∧ (finish s).freeCount = s.freeCount ∧ (finish s).rosterLoaded = s.rosterLoaded ∧
    (finish s).cranesLoaded = s.cranesLoaded ∧ (finish s).clockMs = s.clockMs := by
  simp only [finish]
  simp

/-- The end of a command changes no word of the Directory Unit but the level of ATTN. -/
theorem finish_dir (s : State) : (finish s).dir = { s.dir with attn := (finish s).dir.attn } := by
  simp [finish, evaluateAttn]

end Sys2Proof.Machine
end

