-- ==== Sys2Proof/Laws/Lifecycle.lean ====
section
/-! SUPPORT. What each operation of Machine/Lifecycle.lean leaves as it was: the fields of State it never writes. -/

namespace Sys2Proof.Machine

@[simp] theorem setLifecycle_keeps (d : DirectoryUnit) (s : State) :
    (setLifecycle d s).pending = s.pending ∧ (setLifecycle d s).mem = s.mem ∧ (setLifecycle d s).host = s.host ∧
    (setLifecycle d s).load = s.load ∧ (setLifecycle d s).beds = s.beds ∧ (setLifecycle d s).mixes = s.mixes ∧
    (setLifecycle d s).freeCount = s.freeCount ∧ (setLifecycle d s).steam = s.steam ∧
    (setLifecycle d s).roster = s.roster ∧ (setLifecycle d s).loops = s.loops ∧
    (setLifecycle d s).rosterLoaded = s.rosterLoaded ∧ (setLifecycle d s).stock = s.stock ∧
    (setLifecycle d s).cranes = s.cranes ∧ (setLifecycle d s).yardStop = s.yardStop ∧
    (setLifecycle d s).cranesLoaded = s.cranesLoaded ∧ (setLifecycle d s).moves = s.moves ∧
    (setLifecycle d s).clockMs = s.clockMs := by
  simp only [setLifecycle]
  simp

@[simp] theorem dropUnbegun_keeps (s : State) :
    (dropUnbegun s).pending = s.pending ∧ (dropUnbegun s).mem = s.mem ∧ (dropUnbegun s).host = s.host ∧
    (dropUnbegun s).dir = s.dir ∧ (dropUnbegun s).load = s.load ∧ (dropUnbegun s).beds = s.beds ∧
    (dropUnbegun s).mixes = s.mixes ∧ (dropUnbegun s).freeCount = s.freeCount ∧ (dropUnbegun s).steam = s.steam ∧
    (dropUnbegun s).roster = s.roster ∧ (dropUnbegun s).loops = s.loops ∧
    (dropUnbegun s).rosterLoaded = s.rosterLoaded ∧ (dropUnbegun s).stock = s.stock ∧
    (dropUnbegun s).cranes = s.cranes ∧ (dropUnbegun s).yardStop = s.yardStop ∧
    (dropUnbegun s).cranesLoaded = s.cranesLoaded ∧ (dropUnbegun s).moves = s.moves ∧
    (dropUnbegun s).clockMs = s.clockMs := by
  simp only [dropUnbegun]
  (repeat' split) <;> simp

@[simp] theorem startField_keeps (s : State) :
    (startField s).pending = s.pending ∧ (startField s).mem = s.mem ∧ (startField s).host = s.host ∧
    (startField s).dir = s.dir ∧ (startField s).load = s.load ∧ (startField s).beds = s.beds ∧
    (startField s).mixes = s.mixes ∧ (startField s).freeCount = s.freeCount ∧ (startField s).steam = s.steam ∧
    (startField s).roster = s.roster ∧ (startField s).rosterLoaded = s.rosterLoaded ∧
    (startField s).stock = s.stock ∧ (startField s).yardStop = s.yardStop ∧
    (startField s).cranesLoaded = s.cranesLoaded ∧ (startField s).clockMs = s.clockMs := by
  simp only [startField]
  (repeat' split) <;> simp

@[simp] theorem blocksSafe_keeps (s : State) :
    (blocksSafe s).pending = s.pending ∧ (blocksSafe s).mem = s.mem ∧ (blocksSafe s).host = s.host ∧
    (blocksSafe s).dir = s.dir ∧ (blocksSafe s).load = s.load ∧ (blocksSafe s).mixes = s.mixes ∧
    (blocksSafe s).freeCount = s.freeCount ∧ (blocksSafe s).roster = s.roster ∧ (blocksSafe s).loops = s.loops ∧
    (blocksSafe s).rosterLoaded = s.rosterLoaded ∧ (blocksSafe s).yardStop = s.yardStop ∧
    (blocksSafe s).cranesLoaded = s.cranesLoaded ∧ (blocksSafe s).clockMs = s.clockMs := by
  simp only [blocksSafe]
  simp

@[simp] theorem enterSafe_keeps (cause : SafeCause) (s : State) :
    (enterSafe cause s).pending = s.pending ∧ (enterSafe cause s).mem = s.mem ∧ (enterSafe cause s).host = s.host ∧
    (enterSafe cause s).mixes = s.mixes ∧ (enterSafe cause s).freeCount = s.freeCount ∧
    (enterSafe cause s).roster = s.roster ∧ (enterSafe cause s).rosterLoaded = s.rosterLoaded ∧
    (enterSafe cause s).yardStop = s.yardStop ∧ (enterSafe cause s).cranesLoaded = s.cranesLoaded ∧
    (enterSafe cause s).clockMs = s.clockMs := by
  simp only [enterSafe]
  (repeat' split) <;> simp

@[simp] theorem failLoad_keeps (cause : SafeCause) (code : Code) (region index : Nat) (s : State) :
    (failLoad cause code region index s).pending = s.pending ∧ (failLoad cause code region index s).mem = s.mem ∧
    (failLoad cause code region index s).host = s.host ∧ (failLoad cause code region index s).mixes = s.mixes ∧
    (failLoad cause code region index s).freeCount = s.freeCount ∧
    (failLoad cause code region index s).roster = s.roster ∧
    (failLoad cause code region index s).rosterLoaded = s.rosterLoaded ∧
    (failLoad cause code region index s).yardStop = s.yardStop ∧
    (failLoad cause code region index s).cranesLoaded = s.cranesLoaded ∧
    (failLoad cause code region index s).clockMs = s.clockMs := by
  simp only [failLoad]
  simp

@[simp] theorem takeLifecycle_keeps (safe : Bool) (s : State) :
    (takeLifecycle safe s).pending = s.pending ∧ (takeLifecycle safe s).mem = s.mem ∧
    (takeLifecycle safe s).host = s.host ∧ (takeLifecycle safe s).mixes = s.mixes ∧
    (takeLifecycle safe s).freeCount = s.freeCount ∧ (takeLifecycle safe s).roster = s.roster ∧
    (takeLifecycle safe s).rosterLoaded = s.rosterLoaded ∧ (takeLifecycle safe s).yardStop = s.yardStop ∧
    (takeLifecycle safe s).cranesLoaded = s.cranesLoaded ∧ (takeLifecycle safe s).clockMs = s.clockMs := by
  simp only [takeLifecycle]
  (repeat' split) <;> simp

@[simp] theorem writeBack_keeps (s : State) :
    (writeBack s).pending = s.pending ∧ (writeBack s).mem = s.mem ∧ (writeBack s).host = s.host ∧
    (writeBack s).load = s.load ∧ (writeBack s).beds = s.beds ∧ (writeBack s).mixes = s.mixes ∧
    (writeBack s).freeCount = s.freeCount ∧ (writeBack s).steam = s.steam ∧ (writeBack s).roster = s.roster ∧
    (writeBack s).loops = s.loops ∧ (writeBack s).rosterLoaded = s.rosterLoaded ∧ (writeBack s).stock = s.stock ∧
    (writeBack s).cranes = s.cranes ∧ (writeBack s).yardStop = s.yardStop ∧
    (writeBack s).cranesLoaded = s.cranesLoaded ∧ (writeBack s).moves = s.moves ∧ (writeBack s).clockMs = s.clockMs := by
  simp only [writeBack]
  simp

@[simp] theorem countWorksTime_keeps (s : State) :
    (countWorksTime s).pending = s.pending ∧ (countWorksTime s).mem = s.mem ∧ (countWorksTime s).host = s.host ∧
    (countWorksTime s).load = s.load ∧ (countWorksTime s).beds = s.beds ∧ (countWorksTime s).mixes = s.mixes ∧
    (countWorksTime s).freeCount = s.freeCount ∧ (countWorksTime s).steam = s.steam ∧
    (countWorksTime s).roster = s.roster ∧ (countWorksTime s).loops = s.loops ∧
    (countWorksTime s).rosterLoaded = s.rosterLoaded ∧ (countWorksTime s).stock = s.stock ∧
    (countWorksTime s).cranes = s.cranes ∧ (countWorksTime s).yardStop = s.yardStop ∧
    (countWorksTime s).cranesLoaded = s.cranesLoaded ∧ (countWorksTime s).moves = s.moves ∧
    (countWorksTime s).clockMs = s.clockMs := by
  simp only [countWorksTime]
  (repeat' split) <;> simp

end Sys2Proof.Machine
end

