-- ==== Sys2Proof/Laws/Requests.lean ====
section
/-! SUPPORT. What each operation of Machine/Requests.lean leaves as it was: the fields of State it never writes. -/

namespace Sys2Proof.Machine

@[simp] theorem takeAck_keeps (r : AlarmRef) (s : State) :
    (takeAck r s).pending = s.pending ∧ (takeAck r s).mem = s.mem ∧ (takeAck r s).host = s.host ∧
    (takeAck r s).dir = s.dir ∧ (takeAck r s).load = s.load ∧ (takeAck r s).mixes = s.mixes ∧
    (takeAck r s).freeCount = s.freeCount ∧ (takeAck r s).steam = s.steam ∧
    (takeAck r s).rosterLoaded = s.rosterLoaded ∧ (takeAck r s).stock = s.stock ∧
    (takeAck r s).yardStop = s.yardStop ∧ (takeAck r s).cranesLoaded = s.cranesLoaded ∧
    (takeAck r s).clockMs = s.clockMs := by
  simp only [takeAck]
  (repeat' split) <;> simp

@[simp] theorem clearFault_keeps (s : State) :
    (clearFault s).pending = s.pending ∧ (clearFault s).mem = s.mem ∧ (clearFault s).host = s.host ∧
    (clearFault s).dir = s.dir ∧ (clearFault s).load = s.load ∧ (clearFault s).beds = s.beds ∧
    (clearFault s).mixes = s.mixes ∧ (clearFault s).freeCount = s.freeCount ∧ (clearFault s).steam = s.steam ∧
    (clearFault s).roster = s.roster ∧ (clearFault s).loops = s.loops ∧
    (clearFault s).rosterLoaded = s.rosterLoaded ∧ (clearFault s).stock = s.stock ∧
    (clearFault s).cranes = s.cranes ∧ (clearFault s).yardStop = s.yardStop ∧
    (clearFault s).cranesLoaded = s.cranesLoaded ∧ (clearFault s).moves = s.moves ∧
    (clearFault s).clockMs = s.clockMs := by
  simp only [clearFault]
  (repeat' split) <;> simp

@[simp] theorem takeRequest_keeps (e : HostEvent) (s : State) :
    (takeRequest e s).pending = s.pending ∧ (takeRequest e s).mem = s.mem ∧ (takeRequest e s).host = s.host ∧
    (takeRequest e s).mixes = s.mixes ∧ (takeRequest e s).rosterLoaded = s.rosterLoaded ∧
    (takeRequest e s).yardStop = s.yardStop ∧ (takeRequest e s).cranesLoaded = s.cranesLoaded ∧
    (takeRequest e s).clockMs = s.clockMs := by
  simp only [takeRequest]
  (repeat' split) <;> simp

@[simp] theorem handEvent_keeps (s : State) (e : HostEvent) :
    (handEvent s e).pending = s.pending ∧ (handEvent s e).mem = s.mem ∧ (handEvent s e).host = s.host ∧
    (handEvent s e).mixes = s.mixes ∧ (handEvent s e).rosterLoaded = s.rosterLoaded ∧
    (handEvent s e).yardStop = s.yardStop ∧ (handEvent s e).cranesLoaded = s.cranesLoaded ∧
    (handEvent s e).clockMs = s.clockMs := by
  simp only [handEvent]
  (repeat' split) <;> simp

@[simp] theorem takeFailed_keeps (e : HostEvent) (s : State) :
    (takeFailed e s).pending = s.pending ∧ (takeFailed e s).mem = s.mem ∧ (takeFailed e s).host = s.host ∧
    (takeFailed e s).dir = s.dir ∧ (takeFailed e s).load = s.load ∧ (takeFailed e s).mixes = s.mixes ∧
    (takeFailed e s).steam = s.steam ∧ (takeFailed e s).roster = s.roster ∧ (takeFailed e s).loops = s.loops ∧
    (takeFailed e s).rosterLoaded = s.rosterLoaded ∧ (takeFailed e s).yardStop = s.yardStop ∧
    (takeFailed e s).cranesLoaded = s.cranesLoaded ∧ (takeFailed e s).clockMs = s.clockMs := by
  simp only [takeFailed]
  (repeat' split) <;> simp

@[simp] theorem failEvent_keeps (s : State) (e : HostEvent) :
    (failEvent s e).pending = s.pending ∧ (failEvent s e).mem = s.mem ∧ (failEvent s e).host = s.host ∧
    (failEvent s e).dir = s.dir ∧ (failEvent s e).load = s.load ∧ (failEvent s e).mixes = s.mixes ∧
    (failEvent s e).steam = s.steam ∧ (failEvent s e).roster = s.roster ∧ (failEvent s e).loops = s.loops ∧
    (failEvent s e).rosterLoaded = s.rosterLoaded ∧ (failEvent s e).yardStop = s.yardStop ∧
    (failEvent s e).cranesLoaded = s.cranesLoaded ∧ (failEvent s e).clockMs = s.clockMs := by
  simp only [failEvent]
  (repeat' split) <;> simp

@[simp] theorem handEvents_keeps (es : List HostEvent) (s : State) :
    (handEvents es s).pending = s.pending ∧ (handEvents es s).mem = s.mem ∧ (handEvents es s).host = s.host ∧
    (handEvents es s).mixes = s.mixes ∧ (handEvents es s).rosterLoaded = s.rosterLoaded ∧
    (handEvents es s).yardStop = s.yardStop ∧ (handEvents es s).cranesLoaded = s.cranesLoaded ∧
    (handEvents es s).clockMs = s.clockMs := by
  simp only [handEvents]
  simp

@[simp] theorem failEvents_keeps (es : List HostEvent) (s : State) :
    (failEvents es s).pending = s.pending ∧ (failEvents es s).mem = s.mem ∧ (failEvents es s).host = s.host ∧
    (failEvents es s).dir = s.dir ∧ (failEvents es s).load = s.load ∧ (failEvents es s).mixes = s.mixes ∧
    (failEvents es s).steam = s.steam ∧ (failEvents es s).roster = s.roster ∧ (failEvents es s).loops = s.loops ∧
    (failEvents es s).rosterLoaded = s.rosterLoaded ∧ (failEvents es s).yardStop = s.yardStop ∧
    (failEvents es s).cranesLoaded = s.cranesLoaded ∧ (failEvents es s).clockMs = s.clockMs := by
  simp only [failEvents]
  simp

end Sys2Proof.Machine
end

