-- ==== Sys2Proof/Laws/HostPath.lean ====
section
/-! SUPPORT. What each operation of Machine/HostPath.lean leaves as it was: the fields of State it never writes. -/

namespace Sys2Proof.Machine

@[simp] theorem enterPort_keeps (t : HostTransfer) (s : State) :
    (enterPort t s).pending = s.pending ∧ (enterPort t s).mem = s.mem ∧ (enterPort t s).dir = s.dir ∧
    (enterPort t s).load = s.load ∧ (enterPort t s).beds = s.beds ∧ (enterPort t s).mixes = s.mixes ∧
    (enterPort t s).freeCount = s.freeCount ∧ (enterPort t s).steam = s.steam ∧ (enterPort t s).roster = s.roster ∧
    (enterPort t s).loops = s.loops ∧ (enterPort t s).rosterLoaded = s.rosterLoaded ∧
    (enterPort t s).stock = s.stock ∧ (enterPort t s).cranes = s.cranes ∧ (enterPort t s).yardStop = s.yardStop ∧
    (enterPort t s).cranesLoaded = s.cranesLoaded ∧ (enterPort t s).moves = s.moves ∧
    (enterPort t s).clockMs = s.clockMs := by
  simp only [enterPort]
  (repeat' split) <;> simp

@[simp] theorem letIn_keeps (n : Nat) (s : State) :
    (letIn n s).pending = s.pending ∧ (letIn n s).mem = s.mem ∧ (letIn n s).dir = s.dir ∧
    (letIn n s).load = s.load ∧ (letIn n s).beds = s.beds ∧ (letIn n s).mixes = s.mixes ∧
    (letIn n s).freeCount = s.freeCount ∧ (letIn n s).steam = s.steam ∧ (letIn n s).roster = s.roster ∧
    (letIn n s).loops = s.loops ∧ (letIn n s).rosterLoaded = s.rosterLoaded ∧ (letIn n s).stock = s.stock ∧
    (letIn n s).cranes = s.cranes ∧ (letIn n s).yardStop = s.yardStop ∧ (letIn n s).cranesLoaded = s.cranesLoaded ∧
    (letIn n s).moves = s.moves ∧ (letIn n s).clockMs = s.clockMs := by
  induction n generalizing s with
  | zero => simp [letIn]
  | succ n ih =>
    simp only [letIn]
    split <;> simp [ih]

@[simp] theorem arrive_keeps (t : HostTransfer) (s : State) :
    (arrive t s).pending = s.pending ∧ (arrive t s).mem = s.mem ∧ (arrive t s).dir = s.dir ∧
    (arrive t s).load = s.load ∧ (arrive t s).beds = s.beds ∧ (arrive t s).mixes = s.mixes ∧
    (arrive t s).freeCount = s.freeCount ∧ (arrive t s).steam = s.steam ∧ (arrive t s).roster = s.roster ∧
    (arrive t s).loops = s.loops ∧ (arrive t s).rosterLoaded = s.rosterLoaded ∧ (arrive t s).stock = s.stock ∧
    (arrive t s).cranes = s.cranes ∧ (arrive t s).yardStop = s.yardStop ∧
    (arrive t s).cranesLoaded = s.cranesLoaded ∧ (arrive t s).moves = s.moves ∧ (arrive t s).clockMs = s.clockMs := by
  simp only [arrive]
  (repeat' split) <;> simp

@[simp] theorem respond_keeps (r : Response) (data : List Word) (s : State) :
    (respond r data s).pending = s.pending ∧ (respond r data s).mem = s.mem ∧ (respond r data s).dir = s.dir ∧
    (respond r data s).load = s.load ∧ (respond r data s).beds = s.beds ∧ (respond r data s).mixes = s.mixes ∧
    (respond r data s).freeCount = s.freeCount ∧ (respond r data s).steam = s.steam ∧
    (respond r data s).roster = s.roster ∧ (respond r data s).loops = s.loops ∧
    (respond r data s).rosterLoaded = s.rosterLoaded ∧ (respond r data s).stock = s.stock ∧
    (respond r data s).cranes = s.cranes ∧ (respond r data s).yardStop = s.yardStop ∧
    (respond r data s).cranesLoaded = s.cranesLoaded ∧ (respond r data s).moves = s.moves ∧
    (respond r data s).clockMs = s.clockMs := by
  simp only [respond]
  simp

@[simp] theorem refuseTransfer_keeps (addr : Nat) (reason : Code) (s : State) :
    (refuseTransfer addr reason s).pending = s.pending ∧ (refuseTransfer addr reason s).mem = s.mem ∧
    (refuseTransfer addr reason s).dir = s.dir ∧ (refuseTransfer addr reason s).load = s.load ∧
    (refuseTransfer addr reason s).beds = s.beds ∧ (refuseTransfer addr reason s).mixes = s.mixes ∧
    (refuseTransfer addr reason s).freeCount = s.freeCount ∧ (refuseTransfer addr reason s).steam = s.steam ∧
    (refuseTransfer addr reason s).roster = s.roster ∧ (refuseTransfer addr reason s).loops = s.loops ∧
    (refuseTransfer addr reason s).rosterLoaded = s.rosterLoaded ∧ (refuseTransfer addr reason s).stock = s.stock ∧
    (refuseTransfer addr reason s).cranes = s.cranes ∧ (refuseTransfer addr reason s).yardStop = s.yardStop ∧
    (refuseTransfer addr reason s).cranesLoaded = s.cranesLoaded ∧ (refuseTransfer addr reason s).moves = s.moves ∧
    (refuseTransfer addr reason s).clockMs = s.clockMs := by
  simp only [refuseTransfer]
  simp

@[simp] theorem passTransfer_keeps (u : UpTransfer) (s : State) :
    (passTransfer u s).pending = s.pending ∧ (passTransfer u s).mem = s.mem ∧ (passTransfer u s).path = s.path ∧
    (passTransfer u s).dir = s.dir ∧ (passTransfer u s).load = s.load ∧ (passTransfer u s).beds = s.beds ∧
    (passTransfer u s).mixes = s.mixes ∧ (passTransfer u s).freeCount = s.freeCount ∧
    (passTransfer u s).steam = s.steam ∧ (passTransfer u s).roster = s.roster ∧ (passTransfer u s).loops = s.loops ∧
    (passTransfer u s).rosterLoaded = s.rosterLoaded ∧ (passTransfer u s).stock = s.stock ∧
    (passTransfer u s).cranes = s.cranes ∧ (passTransfer u s).yardStop = s.yardStop ∧
    (passTransfer u s).cranesLoaded = s.cranesLoaded ∧ (passTransfer u s).moves = s.moves ∧
    (passTransfer u s).clockMs = s.clockMs := by
  simp only [passTransfer]
  simp

@[simp] theorem freeReserved_keeps (s : State) :
    (freeReserved s).pending = s.pending ∧ (freeReserved s).mem = s.mem ∧ (freeReserved s).dir = s.dir ∧
    (freeReserved s).load = s.load ∧ (freeReserved s).freeCount = s.freeCount ∧ (freeReserved s).steam = s.steam ∧
    (freeReserved s).roster = s.roster ∧ (freeReserved s).loops = s.loops ∧
    (freeReserved s).rosterLoaded = s.rosterLoaded ∧ (freeReserved s).yardStop = s.yardStop ∧
    (freeReserved s).cranesLoaded = s.cranesLoaded ∧ (freeReserved s).clockMs = s.clockMs := by
  simp only [freeReserved]
  (repeat' split) <;> simp

@[simp] theorem takeLoading_keeps (u : UpTransfer) (ws : List WriteWord) (s : State) :
    (takeLoading u ws s).pending = s.pending ∧ (takeLoading u ws s).mem = s.mem ∧ (takeLoading u ws s).dir = s.dir ∧
    (takeLoading u ws s).load = s.load ∧ (takeLoading u ws s).beds = s.beds ∧ (takeLoading u ws s).mixes = s.mixes ∧
    (takeLoading u ws s).freeCount = s.freeCount ∧ (takeLoading u ws s).steam = s.steam ∧
    (takeLoading u ws s).roster = s.roster ∧ (takeLoading u ws s).loops = s.loops ∧
    (takeLoading u ws s).rosterLoaded = s.rosterLoaded ∧ (takeLoading u ws s).stock = s.stock ∧
    (takeLoading u ws s).cranes = s.cranes ∧ (takeLoading u ws s).yardStop = s.yardStop ∧
    (takeLoading u ws s).cranesLoaded = s.cranesLoaded ∧ (takeLoading u ws s).moves = s.moves ∧
    (takeLoading u ws s).clockMs = s.clockMs := by
  simp only [takeLoading]
  (repeat' split) <;> simp

@[simp] theorem takeSafe_keeps (u : UpTransfer) (ws : List WriteWord) (s : State) :
    (takeSafe u ws s).pending = s.pending ∧ (takeSafe u ws s).mem = s.mem ∧ (takeSafe u ws s).dir = s.dir ∧
    (takeSafe u ws s).load = s.load ∧ (takeSafe u ws s).freeCount = s.freeCount ∧
    (takeSafe u ws s).steam = s.steam ∧ (takeSafe u ws s).roster = s.roster ∧ (takeSafe u ws s).loops = s.loops ∧
    (takeSafe u ws s).rosterLoaded = s.rosterLoaded ∧ (takeSafe u ws s).yardStop = s.yardStop ∧
    (takeSafe u ws s).cranesLoaded = s.cranesLoaded ∧ (takeSafe u ws s).clockMs = s.clockMs := by
  simp only [takeSafe]
  simp

@[simp] theorem takeRunning_keeps (u : UpTransfer) (ws : List WriteWord) (s : State) :
    (takeRunning u ws s).pending = s.pending ∧ (takeRunning u ws s).mem = s.mem ∧ (takeRunning u ws s).dir = s.dir ∧
    (takeRunning u ws s).load = s.load ∧ (takeRunning u ws s).freeCount = s.freeCount ∧
    (takeRunning u ws s).steam = s.steam ∧ (takeRunning u ws s).roster = s.roster ∧
    (takeRunning u ws s).loops = s.loops ∧ (takeRunning u ws s).rosterLoaded = s.rosterLoaded ∧
    (takeRunning u ws s).yardStop = s.yardStop ∧ (takeRunning u ws s).cranesLoaded = s.cranesLoaded ∧
    (takeRunning u ws s).clockMs = s.clockMs := by
  simp only [takeRunning]
  (repeat' split) <;> simp

@[simp] theorem takeWrite_keeps (u : UpTransfer) (ws : List WriteWord) (s : State) :
    (takeWrite u ws s).pending = s.pending ∧ (takeWrite u ws s).mem = s.mem ∧ (takeWrite u ws s).dir = s.dir ∧
    (takeWrite u ws s).load = s.load ∧ (takeWrite u ws s).freeCount = s.freeCount ∧
    (takeWrite u ws s).steam = s.steam ∧ (takeWrite u ws s).roster = s.roster ∧ (takeWrite u ws s).loops = s.loops ∧
    (takeWrite u ws s).rosterLoaded = s.rosterLoaded ∧ (takeWrite u ws s).yardStop = s.yardStop ∧
    (takeWrite u ws s).cranesLoaded = s.cranesLoaded ∧ (takeWrite u ws s).clockMs = s.clockMs := by
  simp only [takeWrite]
  (repeat' split) <;> simp

@[simp] theorem takeTransfer_keeps (s : State) :
    (takeTransfer s).pending = s.pending ∧ (takeTransfer s).mem = s.mem ∧ (takeTransfer s).dir = s.dir ∧
    (takeTransfer s).load = s.load ∧ (takeTransfer s).freeCount = s.freeCount ∧ (takeTransfer s).steam = s.steam ∧
    (takeTransfer s).roster = s.roster ∧ (takeTransfer s).loops = s.loops ∧
    (takeTransfer s).rosterLoaded = s.rosterLoaded ∧ (takeTransfer s).yardStop = s.yardStop ∧
    (takeTransfer s).cranesLoaded = s.cranesLoaded ∧ (takeTransfer s).clockMs = s.clockMs := by
  simp only [takeTransfer]
  (repeat' split) <;> simp

@[simp] theorem bedCopy_keeps (b : Fin 24) (offset : Nat) (value : Word) (s : State) :
    (bedCopy b offset value s).pending = s.pending ∧ (bedCopy b offset value s).mem = s.mem ∧
    (bedCopy b offset value s).host = s.host ∧ (bedCopy b offset value s).path = s.path ∧
    (bedCopy b offset value s).dir = s.dir ∧ (bedCopy b offset value s).load = s.load ∧
    (bedCopy b offset value s).freeCount = s.freeCount ∧ (bedCopy b offset value s).steam = s.steam ∧
    (bedCopy b offset value s).roster = s.roster ∧ (bedCopy b offset value s).loops = s.loops ∧
    (bedCopy b offset value s).rosterLoaded = s.rosterLoaded ∧ (bedCopy b offset value s).stock = s.stock ∧
    (bedCopy b offset value s).cranes = s.cranes ∧ (bedCopy b offset value s).yardStop = s.yardStop ∧
    (bedCopy b offset value s).cranesLoaded = s.cranesLoaded ∧ (bedCopy b offset value s).moves = s.moves ∧
    (bedCopy b offset value s).clockMs = s.clockMs := by
  simp only [bedCopy]
  (repeat' split) <;> simp

@[simp] theorem rosterCopy_keeps (n offset : Nat) (value : Word) (s : State) :
    (rosterCopy n offset value s).pending = s.pending ∧ (rosterCopy n offset value s).mem = s.mem ∧
    (rosterCopy n offset value s).host = s.host ∧ (rosterCopy n offset value s).path = s.path ∧
    (rosterCopy n offset value s).dir = s.dir ∧ (rosterCopy n offset value s).load = s.load ∧
    (rosterCopy n offset value s).beds = s.beds ∧ (rosterCopy n offset value s).mixes = s.mixes ∧
    (rosterCopy n offset value s).freeCount = s.freeCount ∧ (rosterCopy n offset value s).steam = s.steam ∧
    (rosterCopy n offset value s).loops = s.loops ∧ (rosterCopy n offset value s).rosterLoaded = s.rosterLoaded ∧
    (rosterCopy n offset value s).stock = s.stock ∧ (rosterCopy n offset value s).cranes = s.cranes ∧
    (rosterCopy n offset value s).yardStop = s.yardStop ∧
    (rosterCopy n offset value s).cranesLoaded = s.cranesLoaded ∧ (rosterCopy n offset value s).moves = s.moves ∧
    (rosterCopy n offset value s).clockMs = s.clockMs := by
  simp only [rosterCopy]
  (repeat' split) <;> simp

@[simp] theorem holdCopy_keeps (n : Nat) (s : State) :
    (holdCopy n s).pending = s.pending ∧ (holdCopy n s).mem = s.mem ∧ (holdCopy n s).host = s.host ∧
    (holdCopy n s).path = s.path ∧ (holdCopy n s).dir = s.dir ∧ (holdCopy n s).load = s.load ∧
    (holdCopy n s).beds = s.beds ∧ (holdCopy n s).mixes = s.mixes ∧ (holdCopy n s).freeCount = s.freeCount ∧
    (holdCopy n s).steam = s.steam ∧ (holdCopy n s).roster = s.roster ∧ (holdCopy n s).loops = s.loops ∧
    (holdCopy n s).rosterLoaded = s.rosterLoaded ∧ (holdCopy n s).cranes = s.cranes ∧
    (holdCopy n s).yardStop = s.yardStop ∧ (holdCopy n s).cranesLoaded = s.cranesLoaded ∧
    (holdCopy n s).moves = s.moves ∧ (holdCopy n s).clockMs = s.clockMs := by
  simp only [holdCopy]
  (repeat' split) <;> simp

@[simp] theorem slotCopy_keeps (n offset : Nat) (value : Word) (s : State) :
    (slotCopy n offset value s).pending = s.pending ∧ (slotCopy n offset value s).mem = s.mem ∧
    (slotCopy n offset value s).host = s.host ∧ (slotCopy n offset value s).path = s.path ∧
    (slotCopy n offset value s).dir = s.dir ∧ (slotCopy n offset value s).load = s.load ∧
    (slotCopy n offset value s).beds = s.beds ∧ (slotCopy n offset value s).mixes = s.mixes ∧
    (slotCopy n offset value s).freeCount = s.freeCount ∧ (slotCopy n offset value s).steam = s.steam ∧
    (slotCopy n offset value s).roster = s.roster ∧ (slotCopy n offset value s).loops = s.loops ∧
    (slotCopy n offset value s).rosterLoaded = s.rosterLoaded ∧ (slotCopy n offset value s).cranes = s.cranes ∧
    (slotCopy n offset value s).yardStop = s.yardStop ∧ (slotCopy n offset value s).cranesLoaded = s.cranesLoaded ∧
    (slotCopy n offset value s).moves = s.moves ∧ (slotCopy n offset value s).clockMs = s.clockMs := by
  simp only [slotCopy]
  (repeat' split) <;> simp

@[simp] theorem moveCopy_keeps (i : Fin 16) (offset : Nat) (value : Word) (s : State) :
    (moveCopy i offset value s).pending = s.pending ∧ (moveCopy i offset value s).mem = s.mem ∧
    (moveCopy i offset value s).host = s.host ∧ (moveCopy i offset value s).path = s.path ∧
    (moveCopy i offset value s).dir = s.dir ∧ (moveCopy i offset value s).load = s.load ∧
    (moveCopy i offset value s).notices = s.notices ∧ (moveCopy i offset value s).beds = s.beds ∧
    (moveCopy i offset value s).mixes = s.mixes ∧ (moveCopy i offset value s).freeCount = s.freeCount ∧
    (moveCopy i offset value s).steam = s.steam ∧ (moveCopy i offset value s).roster = s.roster ∧
    (moveCopy i offset value s).loops = s.loops ∧ (moveCopy i offset value s).rosterLoaded = s.rosterLoaded ∧
    (moveCopy i offset value s).stock = s.stock ∧ (moveCopy i offset value s).cranes = s.cranes ∧
    (moveCopy i offset value s).yardStop = s.yardStop ∧ (moveCopy i offset value s).cranesLoaded = s.cranesLoaded ∧
    (moveCopy i offset value s).clockMs = s.clockMs := by
  simp only [moveCopy]
  (repeat' split) <;> simp

@[simp] theorem updateCopy_keeps (s : State) (j : JudgedWord) :
    (updateCopy s j).pending = s.pending ∧ (updateCopy s j).mem = s.mem ∧ (updateCopy s j).host = s.host ∧
    (updateCopy s j).dir = s.dir ∧ (updateCopy s j).load = s.load ∧ (updateCopy s j).freeCount = s.freeCount ∧
    (updateCopy s j).steam = s.steam ∧ (updateCopy s j).loops = s.loops ∧
    (updateCopy s j).rosterLoaded = s.rosterLoaded ∧ (updateCopy s j).yardStop = s.yardStop ∧
    (updateCopy s j).cranesLoaded = s.cranesLoaded ∧ 
    (updateCopy s j).clockMs = s.clockMs := by
  simp only [updateCopy]
  (repeat' split) <;> simp

@[simp] theorem updateCopies_keeps (u : UpTransfer) (ws : List WriteWord) (s : State) :
    (updateCopies u ws s).pending = s.pending ∧ (updateCopies u ws s).mem = s.mem ∧
    (updateCopies u ws s).host = s.host ∧ (updateCopies u ws s).dir = s.dir ∧ (updateCopies u ws s).load = s.load ∧
    (updateCopies u ws s).freeCount = s.freeCount ∧ (updateCopies u ws s).steam = s.steam ∧
    (updateCopies u ws s).loops = s.loops ∧ (updateCopies u ws s).rosterLoaded = s.rosterLoaded ∧
    (updateCopies u ws s).yardStop = s.yardStop ∧ (updateCopies u ws s).cranesLoaded = s.cranesLoaded ∧
    (updateCopies u ws s).clockMs = s.clockMs := by
  simp only [updateCopies]
  (repeat' split) <;> simp

@[simp] theorem finishWrite_keeps (s : State) :
    (finishWrite s).pending = s.pending ∧ (finishWrite s).mem = s.mem ∧ (finishWrite s).mixes = s.mixes ∧
    (finishWrite s).rosterLoaded = s.rosterLoaded ∧ (finishWrite s).yardStop = s.yardStop ∧
    (finishWrite s).cranesLoaded = s.cranesLoaded ∧ (finishWrite s).clockMs = s.clockMs := by
  simp only [finishWrite]
  (repeat' split) <;> simp

@[simp] theorem writeDone_keeps (u : UpTransfer) (ws : List WriteWord) (s : State) :
    (writeDone u ws s).pending = s.pending ∧ (writeDone u ws s).rosterLoaded = s.rosterLoaded ∧
    (writeDone u ws s).yardStop = s.yardStop ∧ (writeDone u ws s).cranesLoaded = s.cranesLoaded ∧
    (writeDone u ws s).clockMs = s.clockMs := by
  simp only [writeDone]
  (repeat' split) <;> simp

@[simp] theorem markFault_keeps (places : List WordRef) (s : State) :
    (markFault places s).pending = s.pending ∧ (markFault places s).mem = s.mem ∧
    (markFault places s).host = s.host ∧ (markFault places s).dir = s.dir ∧ (markFault places s).load = s.load ∧
    (markFault places s).beds = s.beds ∧ (markFault places s).mixes = s.mixes ∧
    (markFault places s).freeCount = s.freeCount ∧ (markFault places s).steam = s.steam ∧
    (markFault places s).roster = s.roster ∧ (markFault places s).loops = s.loops ∧
    (markFault places s).rosterLoaded = s.rosterLoaded ∧ (markFault places s).stock = s.stock ∧
    (markFault places s).cranes = s.cranes ∧ (markFault places s).yardStop = s.yardStop ∧
    (markFault places s).cranesLoaded = s.cranesLoaded ∧ (markFault places s).moves = s.moves ∧
    (markFault places s).clockMs = s.clockMs := by
  simp only [markFault]
  (repeat' split) <;> simp

@[simp] theorem readEvents_keeps (addr : Nat) (data : List Word) (s : State) :
    (readEvents addr data s).pending = s.pending ∧ (readEvents addr data s).mem = s.mem ∧
    (readEvents addr data s).host = s.host ∧ (readEvents addr data s).dir = s.dir ∧
    (readEvents addr data s).load = s.load ∧ (readEvents addr data s).mixes = s.mixes ∧
    (readEvents addr data s).freeCount = s.freeCount ∧ (readEvents addr data s).steam = s.steam ∧
    (readEvents addr data s).rosterLoaded = s.rosterLoaded ∧ (readEvents addr data s).stock = s.stock ∧
    (readEvents addr data s).yardStop = s.yardStop ∧ (readEvents addr data s).cranesLoaded = s.cranesLoaded ∧
    (readEvents addr data s).moves = s.moves ∧ (readEvents addr data s).clockMs = s.clockMs := by
  simp only [readEvents]
  refine ⟨foldl_pending _ ?_ _ _, foldl_mem _ ?_ _ _, foldl_host _ ?_ _ _, foldl_dir _ ?_ _ _, foldl_load _ ?_ _ _, foldl_mixes _ ?_ _ _, foldl_freeCount _ ?_ _ _, foldl_steam _ ?_ _ _, foldl_rosterLoaded _ ?_ _ _, foldl_stock _ ?_ _ _, foldl_yardStop _ ?_ _ _, foldl_cranesLoaded _ ?_ _ _, foldl_moves _ ?_ _ _, foldl_clockMs _ ?_ _ _⟩ <;>
    (intro s x; (repeat' split) <;> simp)

@[simp] theorem readDone_keeps (u : UpTransfer) (n : Nat) (s : State) :
    (readDone u n s).pending = s.pending ∧ (readDone u n s).mem = s.mem ∧ (readDone u n s).dir = s.dir ∧
    (readDone u n s).load = s.load ∧ (readDone u n s).mixes = s.mixes ∧ (readDone u n s).freeCount = s.freeCount ∧
    (readDone u n s).steam = s.steam ∧ (readDone u n s).rosterLoaded = s.rosterLoaded ∧
    (readDone u n s).stock = s.stock ∧ (readDone u n s).yardStop = s.yardStop ∧
    (readDone u n s).cranesLoaded = s.cranesLoaded ∧ (readDone u n s).moves = s.moves ∧
    (readDone u n s).clockMs = s.clockMs := by
  simp only [readDone]
  split <;> simp

@[simp] theorem hostFailed_keeps (u : UpTransfer) (kind : FaultCode) (stored : Bool) (s : State) :
    (hostFailed u kind stored s).pending = s.pending ∧ (hostFailed u kind stored s).dir = s.dir ∧
    (hostFailed u kind stored s).load = s.load ∧ (hostFailed u kind stored s).steam = s.steam ∧
    (hostFailed u kind stored s).roster = s.roster ∧ (hostFailed u kind stored s).loops = s.loops ∧
    (hostFailed u kind stored s).rosterLoaded = s.rosterLoaded ∧
    (hostFailed u kind stored s).yardStop = s.yardStop ∧
    (hostFailed u kind stored s).cranesLoaded = s.cranesLoaded ∧ (hostFailed u kind stored s).clockMs = s.clockMs := by
  simp only [hostFailed]
  (repeat' split) <;> simp

@[simp] theorem itemDone_keeps (c : Current) (s : State) :
    (itemDone c s).pending = s.pending ∧ (itemDone c s).mem = s.mem ∧ (itemDone c s).host = s.host ∧
    (itemDone c s).dir = s.dir ∧ (itemDone c s).load = s.load ∧ (itemDone c s).beds = s.beds ∧
    (itemDone c s).mixes = s.mixes ∧ (itemDone c s).freeCount = s.freeCount ∧ (itemDone c s).steam = s.steam ∧
    (itemDone c s).roster = s.roster ∧ (itemDone c s).loops = s.loops ∧
    (itemDone c s).rosterLoaded = s.rosterLoaded ∧ (itemDone c s).stock = s.stock ∧
    (itemDone c s).cranes = s.cranes ∧ (itemDone c s).yardStop = s.yardStop ∧
    (itemDone c s).cranesLoaded = s.cranesLoaded ∧ (itemDone c s).moves = s.moves ∧
    (itemDone c s).clockMs = s.clockMs := by
  simp only [itemDone]
  (repeat' split) <;> simp

@[simp] theorem burstDone_keeps (b : Burst) (c : Current) (s : State) :
    (burstDone b c s).pending = s.pending ∧ (burstDone b c s).host = s.host ∧ (burstDone b c s).dir = s.dir ∧
    (burstDone b c s).load = s.load ∧ (burstDone b c s).beds = s.beds ∧ (burstDone b c s).mixes = s.mixes ∧
    (burstDone b c s).freeCount = s.freeCount ∧ (burstDone b c s).steam = s.steam ∧
    (burstDone b c s).roster = s.roster ∧ (burstDone b c s).loops = s.loops ∧
    (burstDone b c s).rosterLoaded = s.rosterLoaded ∧ (burstDone b c s).stock = s.stock ∧
    (burstDone b c s).cranes = s.cranes ∧ (burstDone b c s).yardStop = s.yardStop ∧
    (burstDone b c s).cranesLoaded = s.cranesLoaded ∧ (burstDone b c s).moves = s.moves ∧
    (burstDone b c s).clockMs = s.clockMs := by
  simp only [burstDone]
  (repeat' split) <;> simp

@[simp] theorem settleHost_keeps (waited : Bool) (s : State) :
    (settleHost waited s).pending = s.pending ∧ (settleHost waited s).mem = s.mem ∧
    (settleHost waited s).rosterLoaded = s.rosterLoaded ∧ (settleHost waited s).yardStop = s.yardStop ∧
    (settleHost waited s).cranesLoaded = s.cranesLoaded ∧ (settleHost waited s).clockMs = s.clockMs := by
  simp only [settleHost]
  (repeat' split) <;> simp

@[simp] theorem ownWriteFailed_keeps (r : Region) (first : Nat) (s : State) :
    (ownWriteFailed r first s).pending = s.pending ∧ (ownWriteFailed r first s).mem = s.mem ∧
    (ownWriteFailed r first s).rosterLoaded = s.rosterLoaded ∧ (ownWriteFailed r first s).yardStop = s.yardStop ∧
    (ownWriteFailed r first s).cranesLoaded = s.cranesLoaded ∧ (ownWriteFailed r first s).clockMs = s.clockMs := by
  simp only [ownWriteFailed]
  (repeat' split) <;> simp

@[simp] theorem ownReadFailed_keeps (rd : OwnRead) (first : Nat) (s : State) :
    (ownReadFailed rd first s).pending = s.pending ∧ (ownReadFailed rd first s).mem = s.mem ∧
    (ownReadFailed rd first s).host = s.host ∧ (ownReadFailed rd first s).dir = s.dir ∧
    (ownReadFailed rd first s).load = s.load ∧ (ownReadFailed rd first s).beds = s.beds ∧
    (ownReadFailed rd first s).mixes = s.mixes ∧ (ownReadFailed rd first s).freeCount = s.freeCount ∧
    (ownReadFailed rd first s).steam = s.steam ∧ (ownReadFailed rd first s).roster = s.roster ∧
    (ownReadFailed rd first s).loops = s.loops ∧ (ownReadFailed rd first s).rosterLoaded = s.rosterLoaded ∧
    (ownReadFailed rd first s).stock = s.stock ∧ (ownReadFailed rd first s).cranes = s.cranes ∧
    (ownReadFailed rd first s).yardStop = s.yardStop ∧ (ownReadFailed rd first s).cranesLoaded = s.cranesLoaded ∧
    (ownReadFailed rd first s).moves = s.moves ∧ (ownReadFailed rd first s).clockMs = s.clockMs := by
  simp only [ownReadFailed]
  simp

@[simp] theorem burstFailed_keeps (b : Burst) (c : Current) (kind : FaultCode) (stored : Bool) (s : State) :
    (burstFailed b c kind stored s).pending = s.pending ∧
    (burstFailed b c kind stored s).rosterLoaded = s.rosterLoaded ∧
    (burstFailed b c kind stored s).yardStop = s.yardStop ∧
    (burstFailed b c kind stored s).cranesLoaded = s.cranesLoaded ∧
    (burstFailed b c kind stored s).clockMs = s.clockMs := by
  simp only [burstFailed]
  (repeat' split) <;> simp

@[simp] theorem portDone_keeps (s : State) :
    (portDone s).pending = s.pending ∧ (portDone s).rosterLoaded = s.rosterLoaded ∧
    (portDone s).yardStop = s.yardStop ∧ (portDone s).cranesLoaded = s.cranesLoaded ∧
    (portDone s).clockMs = s.clockMs := by
  simp only [portDone]
  (repeat' split) <;> simp

@[simp] theorem portFailed_keeps (kind : FaultCode) (stored : Bool) (s : State) :
    (portFailed kind stored s).pending = s.pending ∧ (portFailed kind stored s).rosterLoaded = s.rosterLoaded ∧
    (portFailed kind stored s).yardStop = s.yardStop ∧ (portFailed kind stored s).cranesLoaded = s.cranesLoaded ∧
    (portFailed kind stored s).clockMs = s.clockMs := by
  simp only [portFailed]
  (repeat' split) <;> simp

@[simp] theorem groupComplete_keeps (s : State) :
    (groupComplete s).pending = s.pending ∧ (groupComplete s).mem = s.mem ∧
    (groupComplete s).rosterLoaded = s.rosterLoaded ∧ (groupComplete s).yardStop = s.yardStop ∧
    (groupComplete s).cranesLoaded = s.cranesLoaded ∧ (groupComplete s).clockMs = s.clockMs := by
  simp only [groupComplete]
  (repeat' split) <;> simp

end Sys2Proof.Machine
end

