-- ==== Sys2Proof/Laws/Loading.lean ====
section
/-! SUPPORT. What each operation of Machine/Loading.lean leaves as it was: the fields of State it never writes. -/

namespace Sys2Proof.Machine

@[simp] theorem powerOn_keeps (path : PathUnit) (dir : DirectoryUnit) (s : State) :
    (powerOn path dir s).pending = s.pending ∧ (powerOn path dir s).mem = s.mem := by
  simp only [powerOn]
  simp

@[simp] theorem powerOnReset_keeps (straps : Fin 8) (s : State) :
    (powerOnReset straps s).pending = s.pending ∧ (powerOnReset straps s).mem = s.mem := by
  simp only [powerOnReset]
  simp

@[simp] theorem pathQuiet_keeps (s : State) :
    (pathQuiet s).pending = s.pending ∧ (pathQuiet s).mem = s.mem := by
  simp only [pathQuiet]
  (repeat' split) <;> simp

@[simp] theorem takePlan_keeps (d : List Word) (s : State) :
    (takePlan d s).pending = s.pending ∧ (takePlan d s).mem = s.mem ∧ (takePlan d s).host = s.host ∧
    (takePlan d s).path = s.path ∧ (takePlan d s).load = s.load ∧ (takePlan d s).beds = s.beds ∧
    (takePlan d s).mixes = s.mixes ∧ (takePlan d s).freeCount = s.freeCount ∧ (takePlan d s).steam = s.steam ∧
    (takePlan d s).roster = s.roster ∧ (takePlan d s).loops = s.loops ∧
    (takePlan d s).rosterLoaded = s.rosterLoaded ∧ (takePlan d s).stock = s.stock ∧
    (takePlan d s).cranes = s.cranes ∧ (takePlan d s).yardStop = s.yardStop ∧
    (takePlan d s).cranesLoaded = s.cranesLoaded ∧ (takePlan d s).moves = s.moves ∧
    (takePlan d s).clockMs = s.clockMs := by
  simp only [takePlan]
  simp

@[simp] theorem askLoads_keeps (d : List Word) (s : State) :
    (askLoads d s).pending = s.pending ∧ (askLoads d s).mem = s.mem ∧ (askLoads d s).host = s.host ∧
    (askLoads d s).dir = s.dir ∧ (askLoads d s).beds = s.beds ∧ (askLoads d s).mixes = s.mixes ∧
    (askLoads d s).freeCount = s.freeCount ∧ (askLoads d s).steam = s.steam ∧ (askLoads d s).roster = s.roster ∧
    (askLoads d s).loops = s.loops ∧ (askLoads d s).rosterLoaded = s.rosterLoaded ∧ (askLoads d s).stock = s.stock ∧
    (askLoads d s).cranes = s.cranes ∧ (askLoads d s).yardStop = s.yardStop ∧
    (askLoads d s).cranesLoaded = s.cranesLoaded ∧ (askLoads d s).moves = s.moves ∧
    (askLoads d s).clockMs = s.clockMs := by
  simp only [askLoads]
  refine ⟨foldl_pending _ ?_ _ _, foldl_mem _ ?_ _ _, foldl_host _ ?_ _ _, foldl_dir _ ?_ _ _, foldl_beds _ ?_ _ _, foldl_mixes _ ?_ _ _, foldl_freeCount _ ?_ _ _, foldl_steam _ ?_ _ _, foldl_roster _ ?_ _ _, foldl_loops _ ?_ _ _, foldl_rosterLoaded _ ?_ _ _, foldl_stock _ ?_ _ _, foldl_cranes _ ?_ _ _, foldl_yardStop _ ?_ _ _, foldl_cranesLoaded _ ?_ _ _, foldl_moves _ ?_ _ _, foldl_clockMs _ ?_ _ _⟩ <;>
    (intro s x; (repeat' split) <;> simp)

@[simp] theorem refreshLive_keeps (d : List Word) (s : State) :
    (refreshLive d s).pending = s.pending ∧ (refreshLive d s).mem = s.mem ∧ (refreshLive d s).host = s.host ∧
    (refreshLive d s).dir = s.dir ∧ (refreshLive d s).load = s.load ∧ (refreshLive d s).beds = s.beds ∧
    (refreshLive d s).mixes = s.mixes ∧ (refreshLive d s).freeCount = s.freeCount ∧
    (refreshLive d s).steam = s.steam ∧ (refreshLive d s).roster = s.roster ∧ (refreshLive d s).loops = s.loops ∧
    (refreshLive d s).rosterLoaded = s.rosterLoaded ∧ (refreshLive d s).stock = s.stock ∧
    (refreshLive d s).cranes = s.cranes ∧ (refreshLive d s).yardStop = s.yardStop ∧
    (refreshLive d s).cranesLoaded = s.cranesLoaded ∧ (refreshLive d s).moves = s.moves ∧
    (refreshLive d s).clockMs = s.clockMs := by
  simp only [refreshLive]
  (repeat' split) <;> simp

@[simp] theorem directoryPassed_keeps (first : Bool) (d : List Word) (s : State) :
    (directoryPassed first d s).pending = s.pending ∧ (directoryPassed first d s).mem = s.mem ∧
    (directoryPassed first d s).host = s.host ∧ (directoryPassed first d s).beds = s.beds ∧
    (directoryPassed first d s).mixes = s.mixes ∧ (directoryPassed first d s).freeCount = s.freeCount ∧
    (directoryPassed first d s).steam = s.steam ∧ (directoryPassed first d s).roster = s.roster ∧
    (directoryPassed first d s).loops = s.loops ∧ (directoryPassed first d s).rosterLoaded = s.rosterLoaded ∧
    (directoryPassed first d s).stock = s.stock ∧ (directoryPassed first d s).cranes = s.cranes ∧
    (directoryPassed first d s).yardStop = s.yardStop ∧ (directoryPassed first d s).cranesLoaded = s.cranesLoaded ∧
    (directoryPassed first d s).moves = s.moves ∧ (directoryPassed first d s).clockMs = s.clockMs := by
  simp only [directoryPassed]
  (repeat' split) <;> simp

@[simp] theorem directoryReturned_keeps (data : Option (List Word)) (s : State) :
    (directoryReturned data s).pending = s.pending ∧ (directoryReturned data s).mem = s.mem ∧
    (directoryReturned data s).host = s.host ∧ (directoryReturned data s).mixes = s.mixes ∧
    (directoryReturned data s).freeCount = s.freeCount ∧ (directoryReturned data s).roster = s.roster ∧
    (directoryReturned data s).rosterLoaded = s.rosterLoaded ∧ (directoryReturned data s).yardStop = s.yardStop ∧
    (directoryReturned data s).cranesLoaded = s.cranesLoaded ∧ (directoryReturned data s).clockMs = s.clockMs := by
  simp only [directoryReturned]
  (repeat' split) <;> simp

@[simp] theorem loadReadDone_keeps (r : Region) (x : ReturnedRead) (s : State) :
    (loadReadDone r x s).pending = s.pending ∧ (loadReadDone r x s).mem = s.mem ∧
    (loadReadDone r x s).host = s.host ∧ (loadReadDone r x s).mixes = s.mixes ∧
    (loadReadDone r x s).freeCount = s.freeCount ∧ (loadReadDone r x s).roster = s.roster ∧
    (loadReadDone r x s).rosterLoaded = s.rosterLoaded ∧ (loadReadDone r x s).yardStop = s.yardStop ∧
    (loadReadDone r x s).cranesLoaded = s.cranesLoaded ∧ (loadReadDone r x s).clockMs = s.clockMs := by
  simp only [loadReadDone]
  (repeat' split) <;> simp

@[simp] theorem handRead_keeps (x : ReturnedRead) (s : State) :
    (handRead x s).pending = s.pending ∧ (handRead x s).mem = s.mem ∧ (handRead x s).host = s.host ∧
    (handRead x s).mixes = s.mixes ∧ (handRead x s).roster = s.roster ∧
    (handRead x s).rosterLoaded = s.rosterLoaded ∧ (handRead x s).yardStop = s.yardStop ∧
    (handRead x s).cranesLoaded = s.cranesLoaded ∧ (handRead x s).clockMs = s.clockMs := by
  simp only [handRead]
  (repeat' split) <;> simp

@[simp] theorem ownReadDone_keeps (s : State) :
    (ownReadDone s).pending = s.pending ∧ (ownReadDone s).mem = s.mem ∧ (ownReadDone s).host = s.host ∧
    (ownReadDone s).mixes = s.mixes ∧ (ownReadDone s).roster = s.roster ∧
    (ownReadDone s).rosterLoaded = s.rosterLoaded ∧ (ownReadDone s).yardStop = s.yardStop ∧
    (ownReadDone s).cranesLoaded = s.cranesLoaded ∧ (ownReadDone s).clockMs = s.clockMs := by
  simp only [ownReadDone]
  (repeat' split) <;> simp

@[simp] theorem directoryReadDone_keeps (s : State) :
    (directoryReadDone s).pending = s.pending ∧ (directoryReadDone s).mem = s.mem ∧
    (directoryReadDone s).host = s.host ∧ (directoryReadDone s).mixes = s.mixes ∧
    (directoryReadDone s).freeCount = s.freeCount ∧ (directoryReadDone s).roster = s.roster ∧
    (directoryReadDone s).rosterLoaded = s.rosterLoaded ∧ (directoryReadDone s).yardStop = s.yardStop ∧
    (directoryReadDone s).cranesLoaded = s.cranesLoaded ∧ (directoryReadDone s).clockMs = s.clockMs := by
  simp only [directoryReadDone]
  (repeat' split) <;> simp

@[simp] theorem refreshLoaded_keeps (r : Region) (i : Nat) (words : List (Nat × Word)) (s : State) :
    (refreshLoaded r i words s).pending = s.pending ∧ (refreshLoaded r i words s).mem = s.mem ∧
    (refreshLoaded r i words s).host = s.host ∧ (refreshLoaded r i words s).dir = s.dir ∧
    (refreshLoaded r i words s).load = s.load ∧ (refreshLoaded r i words s).beds = s.beds ∧
    (refreshLoaded r i words s).mixes = s.mixes ∧ (refreshLoaded r i words s).freeCount = s.freeCount ∧
    (refreshLoaded r i words s).steam = s.steam ∧ (refreshLoaded r i words s).roster = s.roster ∧
    (refreshLoaded r i words s).loops = s.loops ∧ (refreshLoaded r i words s).rosterLoaded = s.rosterLoaded ∧
    (refreshLoaded r i words s).stock = s.stock ∧ (refreshLoaded r i words s).cranes = s.cranes ∧
    (refreshLoaded r i words s).yardStop = s.yardStop ∧ (refreshLoaded r i words s).cranesLoaded = s.cranesLoaded ∧
    (refreshLoaded r i words s).moves = s.moves ∧ (refreshLoaded r i words s).clockMs = s.clockMs := by
  simp only [refreshLoaded]
  simp

@[simp] theorem buildMix_keeps (n : Nat) (s : State) :
    (buildMix n s).pending = s.pending ∧ (buildMix n s).mem = s.mem ∧ (buildMix n s).host = s.host ∧
    (buildMix n s).path = s.path ∧ (buildMix n s).dir = s.dir ∧ (buildMix n s).load = s.load ∧
    (buildMix n s).beds = s.beds ∧ (buildMix n s).freeCount = s.freeCount ∧ (buildMix n s).steam = s.steam ∧
    (buildMix n s).roster = s.roster ∧ (buildMix n s).loops = s.loops ∧
    (buildMix n s).rosterLoaded = s.rosterLoaded ∧ (buildMix n s).stock = s.stock ∧
    (buildMix n s).cranes = s.cranes ∧ (buildMix n s).yardStop = s.yardStop ∧
    (buildMix n s).cranesLoaded = s.cranesLoaded ∧ (buildMix n s).moves = s.moves ∧
    (buildMix n s).clockMs = s.clockMs := by
  simp only [buildMix]
  simp

@[simp] theorem buildBed_keeps (b : Fin 24) (s : State) :
    (buildBed b s).pending = s.pending ∧ (buildBed b s).mem = s.mem ∧ (buildBed b s).host = s.host ∧
    (buildBed b s).dir = s.dir ∧ (buildBed b s).load = s.load ∧ (buildBed b s).mixes = s.mixes ∧
    (buildBed b s).freeCount = s.freeCount ∧ (buildBed b s).steam = s.steam ∧ (buildBed b s).roster = s.roster ∧
    (buildBed b s).loops = s.loops ∧ (buildBed b s).rosterLoaded = s.rosterLoaded ∧ (buildBed b s).stock = s.stock ∧
    (buildBed b s).cranes = s.cranes ∧ (buildBed b s).yardStop = s.yardStop ∧
    (buildBed b s).cranesLoaded = s.cranesLoaded ∧ (buildBed b s).moves = s.moves ∧
    (buildBed b s).clockMs = s.clockMs := by
  simp only [buildBed]
  (repeat' split) <;> simp

@[simp] theorem buildBedUnit_keeps (s : State) :
    (buildBedUnit s).pending = s.pending ∧ (buildBedUnit s).mem = s.mem ∧ (buildBedUnit s).host = s.host ∧
    (buildBedUnit s).dir = s.dir ∧ (buildBedUnit s).load = s.load ∧ (buildBedUnit s).steam = s.steam ∧
    (buildBedUnit s).roster = s.roster ∧ (buildBedUnit s).loops = s.loops ∧
    (buildBedUnit s).rosterLoaded = s.rosterLoaded ∧ (buildBedUnit s).stock = s.stock ∧
    (buildBedUnit s).cranes = s.cranes ∧ (buildBedUnit s).yardStop = s.yardStop ∧
    (buildBedUnit s).cranesLoaded = s.cranesLoaded ∧ (buildBedUnit s).moves = s.moves ∧
    (buildBedUnit s).clockMs = s.clockMs := by
  simp only [buildBedUnit]
  simp

@[simp] theorem buildCure_keeps (b : Fin 24) (s : State) :
    (buildCure b s).pending = s.pending ∧ (buildCure b s).mem = s.mem ∧ (buildCure b s).host = s.host ∧
    (buildCure b s).dir = s.dir ∧ (buildCure b s).load = s.load ∧ (buildCure b s).mixes = s.mixes ∧
    (buildCure b s).freeCount = s.freeCount ∧ (buildCure b s).steam = s.steam ∧ (buildCure b s).roster = s.roster ∧
    (buildCure b s).loops = s.loops ∧ (buildCure b s).rosterLoaded = s.rosterLoaded ∧
    (buildCure b s).stock = s.stock ∧ (buildCure b s).cranes = s.cranes ∧ (buildCure b s).yardStop = s.yardStop ∧
    (buildCure b s).cranesLoaded = s.cranesLoaded ∧ (buildCure b s).moves = s.moves ∧
    (buildCure b s).clockMs = s.clockMs := by
  simp only [buildCure]
  (repeat' split) <;> simp

@[simp] theorem buildProbes_keeps (s : State) :
    (buildProbes s).pending = s.pending ∧ (buildProbes s).mem = s.mem ∧ (buildProbes s).host = s.host ∧
    (buildProbes s).dir = s.dir ∧ (buildProbes s).load = s.load ∧ (buildProbes s).beds = s.beds ∧
    (buildProbes s).mixes = s.mixes ∧ (buildProbes s).freeCount = s.freeCount ∧ (buildProbes s).steam = s.steam ∧
    (buildProbes s).loops = s.loops ∧ (buildProbes s).stock = s.stock ∧ (buildProbes s).cranes = s.cranes ∧
    (buildProbes s).yardStop = s.yardStop ∧ (buildProbes s).cranesLoaded = s.cranesLoaded ∧
    (buildProbes s).moves = s.moves ∧ (buildProbes s).clockMs = s.clockMs := by
  simp only [buildProbes]
  simp

@[simp] theorem buildStock_keeps (s : State) :
    (buildStock s).pending = s.pending ∧ (buildStock s).mem = s.mem ∧ (buildStock s).host = s.host ∧
    (buildStock s).dir = s.dir ∧ (buildStock s).load = s.load ∧ (buildStock s).beds = s.beds ∧
    (buildStock s).mixes = s.mixes ∧ (buildStock s).freeCount = s.freeCount ∧ (buildStock s).steam = s.steam ∧
    (buildStock s).roster = s.roster ∧ (buildStock s).loops = s.loops ∧
    (buildStock s).rosterLoaded = s.rosterLoaded ∧ (buildStock s).cranes = s.cranes ∧
    (buildStock s).yardStop = s.yardStop ∧ (buildStock s).cranesLoaded = s.cranesLoaded ∧
    (buildStock s).moves = s.moves ∧ (buildStock s).clockMs = s.clockMs := by
  simp only [buildStock]
  refine ⟨foldl_pending _ ?_ _ _, foldl_mem _ ?_ _ _, foldl_host _ ?_ _ _, foldl_dir _ ?_ _ _, foldl_load _ ?_ _ _, foldl_beds _ ?_ _ _, foldl_mixes _ ?_ _ _, foldl_freeCount _ ?_ _ _, foldl_steam _ ?_ _ _, foldl_roster _ ?_ _ _, foldl_loops _ ?_ _ _, foldl_rosterLoaded _ ?_ _ _, foldl_cranes _ ?_ _ _, foldl_yardStop _ ?_ _ _, foldl_cranesLoaded _ ?_ _ _, foldl_moves _ ?_ _ _, foldl_clockMs _ ?_ _ _⟩ <;>
    (intro s x; (repeat' split) <;> simp)

@[simp] theorem buildCrane_keeps (c : Fin 2) (s : State) :
    (buildCrane c s).pending = s.pending ∧ (buildCrane c s).mem = s.mem ∧ (buildCrane c s).host = s.host ∧
    (buildCrane c s).dir = s.dir ∧ (buildCrane c s).load = s.load ∧ (buildCrane c s).beds = s.beds ∧
    (buildCrane c s).mixes = s.mixes ∧ (buildCrane c s).freeCount = s.freeCount ∧ (buildCrane c s).steam = s.steam ∧
    (buildCrane c s).roster = s.roster ∧ (buildCrane c s).loops = s.loops ∧
    (buildCrane c s).rosterLoaded = s.rosterLoaded ∧ (buildCrane c s).stock = s.stock ∧
    (buildCrane c s).yardStop = s.yardStop ∧ (buildCrane c s).cranesLoaded = s.cranesLoaded ∧
    (buildCrane c s).moves = s.moves ∧ (buildCrane c s).clockMs = s.clockMs := by
  simp only [buildCrane]
  simp

@[simp] theorem buildCranes_keeps (s : State) :
    (buildCranes s).pending = s.pending ∧ (buildCranes s).mem = s.mem ∧ (buildCranes s).host = s.host ∧
    (buildCranes s).dir = s.dir ∧ (buildCranes s).load = s.load ∧ (buildCranes s).beds = s.beds ∧
    (buildCranes s).mixes = s.mixes ∧ (buildCranes s).freeCount = s.freeCount ∧ (buildCranes s).steam = s.steam ∧
    (buildCranes s).roster = s.roster ∧ (buildCranes s).loops = s.loops ∧
    (buildCranes s).rosterLoaded = s.rosterLoaded ∧ (buildCranes s).stock = s.stock ∧
    (buildCranes s).yardStop = s.yardStop ∧ (buildCranes s).moves = s.moves ∧ (buildCranes s).clockMs = s.clockMs := by
  simp only [buildCranes]
  simp

@[simp] theorem resumeLoaded_keeps (i : Fin 16) (s : State) :
    (resumeLoaded i s).pending = s.pending ∧ (resumeLoaded i s).mem = s.mem ∧ (resumeLoaded i s).host = s.host ∧
    (resumeLoaded i s).dir = s.dir ∧ (resumeLoaded i s).load = s.load ∧ (resumeLoaded i s).beds = s.beds ∧
    (resumeLoaded i s).mixes = s.mixes ∧ (resumeLoaded i s).freeCount = s.freeCount ∧
    (resumeLoaded i s).steam = s.steam ∧ (resumeLoaded i s).roster = s.roster ∧ (resumeLoaded i s).loops = s.loops ∧
    (resumeLoaded i s).rosterLoaded = s.rosterLoaded ∧ (resumeLoaded i s).stock = s.stock ∧
    (resumeLoaded i s).yardStop = s.yardStop ∧ (resumeLoaded i s).cranesLoaded = s.cranesLoaded ∧
    (resumeLoaded i s).moves = s.moves ∧ (resumeLoaded i s).clockMs = s.clockMs := by
  simp only [resumeLoaded]
  (repeat' split) <;> simp

@[simp] theorem endUnloaded_keeps (i : Fin 16) (s : State) :
    (endUnloaded i s).pending = s.pending ∧ (endUnloaded i s).mem = s.mem ∧ (endUnloaded i s).host = s.host ∧
    (endUnloaded i s).dir = s.dir ∧ (endUnloaded i s).load = s.load ∧ (endUnloaded i s).beds = s.beds ∧
    (endUnloaded i s).mixes = s.mixes ∧ (endUnloaded i s).freeCount = s.freeCount ∧
    (endUnloaded i s).steam = s.steam ∧ (endUnloaded i s).roster = s.roster ∧ (endUnloaded i s).loops = s.loops ∧
    (endUnloaded i s).rosterLoaded = s.rosterLoaded ∧ (endUnloaded i s).stock = s.stock ∧
    (endUnloaded i s).yardStop = s.yardStop ∧ (endUnloaded i s).cranesLoaded = s.cranesLoaded ∧
    (endUnloaded i s).clockMs = s.clockMs := by
  simp only [endUnloaded]
  (repeat' split) <;> simp

@[simp] theorem releaseUnloaded_keeps (i : Fin 16) (s : State) :
    (releaseUnloaded i s).pending = s.pending ∧ (releaseUnloaded i s).mem = s.mem ∧
    (releaseUnloaded i s).host = s.host ∧ (releaseUnloaded i s).path = s.path ∧ (releaseUnloaded i s).dir = s.dir ∧
    (releaseUnloaded i s).load = s.load ∧ (releaseUnloaded i s).beds = s.beds ∧
    (releaseUnloaded i s).mixes = s.mixes ∧ (releaseUnloaded i s).freeCount = s.freeCount ∧
    (releaseUnloaded i s).steam = s.steam ∧ (releaseUnloaded i s).roster = s.roster ∧
    (releaseUnloaded i s).loops = s.loops ∧ (releaseUnloaded i s).rosterLoaded = s.rosterLoaded ∧
    (releaseUnloaded i s).cranes = s.cranes ∧ (releaseUnloaded i s).yardStop = s.yardStop ∧
    (releaseUnloaded i s).cranesLoaded = s.cranesLoaded ∧ (releaseUnloaded i s).moves = s.moves ∧
    (releaseUnloaded i s).clockMs = s.clockMs := by
  simp only [releaseUnloaded]
  (repeat' split) <;> simp

@[simp] theorem clearPost_keeps (n : Nat) (s : State) :
    (clearPost n s).pending = s.pending ∧ (clearPost n s).mem = s.mem ∧ (clearPost n s).host = s.host ∧
    (clearPost n s).dir = s.dir ∧ (clearPost n s).load = s.load ∧ (clearPost n s).beds = s.beds ∧
    (clearPost n s).mixes = s.mixes ∧ (clearPost n s).freeCount = s.freeCount ∧ (clearPost n s).steam = s.steam ∧
    (clearPost n s).roster = s.roster ∧ (clearPost n s).loops = s.loops ∧
    (clearPost n s).rosterLoaded = s.rosterLoaded ∧ (clearPost n s).stock = s.stock ∧
    (clearPost n s).cranes = s.cranes ∧ (clearPost n s).yardStop = s.yardStop ∧
    (clearPost n s).cranesLoaded = s.cranesLoaded ∧ (clearPost n s).moves = s.moves ∧
    (clearPost n s).clockMs = s.clockMs := by
  simp only [clearPost]
  (repeat' split) <;> simp

@[simp] theorem buildLink_keeps (c : Fin 2) (s : State) :
    (buildLink c s).pending = s.pending ∧ (buildLink c s).mem = s.mem ∧ (buildLink c s).host = s.host ∧
    (buildLink c s).path = s.path ∧ (buildLink c s).dir = s.dir ∧ (buildLink c s).load = s.load ∧
    (buildLink c s).notices = s.notices ∧ (buildLink c s).beds = s.beds ∧ (buildLink c s).mixes = s.mixes ∧
    (buildLink c s).freeCount = s.freeCount ∧ (buildLink c s).steam = s.steam ∧ (buildLink c s).roster = s.roster ∧
    (buildLink c s).loops = s.loops ∧ (buildLink c s).rosterLoaded = s.rosterLoaded ∧
    (buildLink c s).stock = s.stock ∧ (buildLink c s).yardStop = s.yardStop ∧
    (buildLink c s).cranesLoaded = s.cranesLoaded ∧ (buildLink c s).moves = s.moves ∧
    (buildLink c s).clockMs = s.clockMs := by
  simp only [buildLink]
  simp

@[simp] theorem buildMoves_keeps (s : State) :
    (buildMoves s).pending = s.pending ∧ (buildMoves s).mem = s.mem ∧ (buildMoves s).host = s.host ∧
    (buildMoves s).dir = s.dir ∧ (buildMoves s).load = s.load ∧ (buildMoves s).beds = s.beds ∧
    (buildMoves s).mixes = s.mixes ∧ (buildMoves s).freeCount = s.freeCount ∧ (buildMoves s).steam = s.steam ∧
    (buildMoves s).roster = s.roster ∧ (buildMoves s).loops = s.loops ∧
    (buildMoves s).rosterLoaded = s.rosterLoaded ∧ (buildMoves s).yardStop = s.yardStop ∧
    (buildMoves s).cranesLoaded = s.cranesLoaded ∧ (buildMoves s).clockMs = s.clockMs := by
  simp only [buildMoves]
  simp

@[simp] theorem buildSteamBed_keeps (b : Fin 24) (s : State) :
    (buildSteamBed b s).pending = s.pending ∧ (buildSteamBed b s).mem = s.mem ∧ (buildSteamBed b s).host = s.host ∧
    (buildSteamBed b s).dir = s.dir ∧ (buildSteamBed b s).load = s.load ∧ (buildSteamBed b s).mixes = s.mixes ∧
    (buildSteamBed b s).freeCount = s.freeCount ∧ (buildSteamBed b s).steam = s.steam ∧
    (buildSteamBed b s).roster = s.roster ∧ (buildSteamBed b s).loops = s.loops ∧
    (buildSteamBed b s).rosterLoaded = s.rosterLoaded ∧ (buildSteamBed b s).stock = s.stock ∧
    (buildSteamBed b s).cranes = s.cranes ∧ (buildSteamBed b s).yardStop = s.yardStop ∧
    (buildSteamBed b s).cranesLoaded = s.cranesLoaded ∧ (buildSteamBed b s).moves = s.moves ∧
    (buildSteamBed b s).clockMs = s.clockMs := by
  simp only [buildSteamBed]
  simp

@[simp] theorem buildSteam_keeps (s : State) :
    (buildSteam s).pending = s.pending ∧ (buildSteam s).mem = s.mem ∧ (buildSteam s).host = s.host ∧
    (buildSteam s).dir = s.dir ∧ (buildSteam s).load = s.load ∧ (buildSteam s).mixes = s.mixes ∧
    (buildSteam s).freeCount = s.freeCount ∧ (buildSteam s).roster = s.roster ∧ (buildSteam s).loops = s.loops ∧
    (buildSteam s).rosterLoaded = s.rosterLoaded ∧ (buildSteam s).stock = s.stock ∧
    (buildSteam s).cranes = s.cranes ∧ (buildSteam s).yardStop = s.yardStop ∧
    (buildSteam s).cranesLoaded = s.cranesLoaded ∧ (buildSteam s).moves = s.moves ∧
    (buildSteam s).clockMs = s.clockMs := by
  simp only [buildSteam]
  simp

@[simp] theorem buildAlarm_keeps (r : AlarmRef) (s : State) :
    (buildAlarm r s).pending = s.pending ∧ (buildAlarm r s).mem = s.mem ∧ (buildAlarm r s).host = s.host ∧
    (buildAlarm r s).dir = s.dir ∧ (buildAlarm r s).load = s.load ∧ (buildAlarm r s).mixes = s.mixes ∧
    (buildAlarm r s).freeCount = s.freeCount ∧ (buildAlarm r s).steam = s.steam ∧
    (buildAlarm r s).rosterLoaded = s.rosterLoaded ∧ (buildAlarm r s).stock = s.stock ∧
    (buildAlarm r s).yardStop = s.yardStop ∧ (buildAlarm r s).cranesLoaded = s.cranesLoaded ∧
    (buildAlarm r s).moves = s.moves ∧ (buildAlarm r s).clockMs = s.clockMs := by
  simp only [buildAlarm]
  (repeat' split) <;> simp

@[simp] theorem buildNotices_keeps (s : State) :
    (buildNotices s).pending = s.pending ∧ (buildNotices s).mem = s.mem ∧ (buildNotices s).host = s.host ∧
    (buildNotices s).dir = s.dir ∧ (buildNotices s).load = s.load ∧ (buildNotices s).mixes = s.mixes ∧
    (buildNotices s).freeCount = s.freeCount ∧ (buildNotices s).steam = s.steam ∧
    (buildNotices s).rosterLoaded = s.rosterLoaded ∧ (buildNotices s).stock = s.stock ∧
    (buildNotices s).yardStop = s.yardStop ∧ (buildNotices s).cranesLoaded = s.cranesLoaded ∧
    (buildNotices s).moves = s.moves ∧ (buildNotices s).clockMs = s.clockMs := by
  simp only [buildNotices]
  refine ⟨foldl_pending _ ?_ _ _, foldl_mem _ ?_ _ _, foldl_host _ ?_ _ _, foldl_dir _ ?_ _ _, foldl_load _ ?_ _ _, foldl_mixes _ ?_ _ _, foldl_freeCount _ ?_ _ _, foldl_steam _ ?_ _ _, foldl_rosterLoaded _ ?_ _ _, foldl_stock _ ?_ _ _, foldl_yardStop _ ?_ _ _, foldl_cranesLoaded _ ?_ _ _, foldl_moves _ ?_ _ _, foldl_clockMs _ ?_ _ _⟩ <;>
    (intro s x; simp)

theorem runBlocks_keeps (bs : List LoadBlock) (s : State)
    (h : ∀ x ∈ bs, ∀ t : State, (x.build t).pending = t.pending ∧ (x.build t).mem = t.mem) :
    (runBlocks bs s).pending = s.pending ∧ (runBlocks bs s).mem = s.mem := by
  induction bs generalizing s with
  | nil => simp [runBlocks]
  | cons x bs ih =>
    simp only [runBlocks]
    split
    · simp
    · have k := ih (x.build s) (fun y hy t => h y (List.mem_cons_of_mem x hy) t)
      have hx := h x List.mem_cons_self s
      exact ⟨k.1.trans hx.1, k.2.trans hx.2⟩

@[simp] theorem loadReadsDone_keeps (s : State) :
    (loadReadsDone s).pending = s.pending ∧ (loadReadsDone s).mem = s.mem := by
  simp only [loadReadsDone]
  split
  · refine runBlocks_keeps _ _ ?_
    intro x hx t
    simp only [loadBlocks, List.mem_cons, List.not_mem_nil, or_false] at hx
    rcases hx with h | h | h | h | h | h | h | h <;> subst h <;> simp
  · simp

@[simp] theorem loadingEnd_keeps (s : State) :
    (loadingEnd s).pending = s.pending ∧ (loadingEnd s).mem = s.mem ∧ (loadingEnd s).host = s.host ∧
    (loadingEnd s).beds = s.beds ∧ (loadingEnd s).mixes = s.mixes ∧ (loadingEnd s).freeCount = s.freeCount ∧
    (loadingEnd s).steam = s.steam ∧ (loadingEnd s).roster = s.roster ∧
    (loadingEnd s).rosterLoaded = s.rosterLoaded ∧ (loadingEnd s).stock = s.stock ∧
    (loadingEnd s).yardStop = s.yardStop ∧ (loadingEnd s).cranesLoaded = s.cranesLoaded ∧
    (loadingEnd s).clockMs = s.clockMs := by
  simp only [loadingEnd]
  (repeat' split) <;> simp

end Sys2Proof.Machine
end

