-- ==== Sys2Proof/Laws/Clock.lean ====
section
/-! SUPPORT. What each operation of Machine/Clock.lean leaves as it was: the fields of State it never writes. -/

namespace Sys2Proof.Machine

@[simp] theorem shortTick_keeps (s : State) :
    (shortTick s).pending = s.pending ∧ (shortTick s).mem = s.mem ∧ (shortTick s).host = s.host ∧
    (shortTick s).dir = s.dir ∧ (shortTick s).load = s.load ∧ (shortTick s).beds = s.beds ∧
    (shortTick s).mixes = s.mixes ∧ (shortTick s).freeCount = s.freeCount ∧ (shortTick s).steam = s.steam ∧
    (shortTick s).roster = s.roster ∧ (shortTick s).rosterLoaded = s.rosterLoaded ∧ (shortTick s).stock = s.stock ∧
    (shortTick s).yardStop = s.yardStop ∧ (shortTick s).cranesLoaded = s.cranesLoaded ∧
    (shortTick s).moves = s.moves := by
  simp only [shortTick]
  simp

@[simp] theorem longTick_keeps (s : State) :
    (longTick s).pending = s.pending ∧ (longTick s).mem = s.mem ∧ (longTick s).host = s.host ∧
    (longTick s).load = s.load ∧ (longTick s).beds = s.beds ∧ (longTick s).mixes = s.mixes ∧
    (longTick s).freeCount = s.freeCount ∧ (longTick s).roster = s.roster ∧
    (longTick s).rosterLoaded = s.rosterLoaded ∧ (longTick s).stock = s.stock ∧ (longTick s).yardStop = s.yardStop ∧
    (longTick s).cranesLoaded = s.cranesLoaded ∧ (longTick s).clockMs = s.clockMs := by
  simp only [longTick]
  simp

@[simp] theorem tick_keeps (s : State) :
    (tick s).pending = s.pending ∧ (tick s).mem = s.mem ∧ (tick s).load = s.load ∧
    (tick s).freeCount = s.freeCount ∧ (tick s).roster = s.roster ∧ (tick s).rosterLoaded = s.rosterLoaded ∧
    (tick s).yardStop = s.yardStop ∧ (tick s).cranesLoaded = s.cranesLoaded := by
  simp only [tick]
  (repeat' split) <;> simp

@[simp] theorem hostWriteNow_keeps (addr : Nat) (words : List WriteWord) (s : State) :
    (hostWriteNow addr words s).pending = s.pending ∧ (hostWriteNow addr words s).rosterLoaded = s.rosterLoaded ∧
    (hostWriteNow addr words s).yardStop = s.yardStop ∧ (hostWriteNow addr words s).cranesLoaded = s.cranesLoaded ∧
    (hostWriteNow addr words s).clockMs = s.clockMs := by
  simp only [hostWriteNow]
  (repeat' split) <;> simp

@[simp] theorem writeRecord_keeps (r : Region) (index offset : Nat) (values : List Word) (s : State) :
    (writeRecord r index offset values s).pending = s.pending ∧
    (writeRecord r index offset values s).rosterLoaded = s.rosterLoaded ∧
    (writeRecord r index offset values s).yardStop = s.yardStop ∧
    (writeRecord r index offset values s).cranesLoaded = s.cranesLoaded ∧
    (writeRecord r index offset values s).clockMs = s.clockMs := by
  simp only [writeRecord]
  (repeat' split) <;> simp

@[simp] theorem runIntake_keeps (b : Fin 24) (n : Nat) (s : State) :
    (runIntake b n s).pending = s.pending ∧ (runIntake b n s).rosterLoaded = s.rosterLoaded ∧
    (runIntake b n s).yardStop = s.yardStop ∧ (runIntake b n s).cranesLoaded = s.cranesLoaded ∧
    (runIntake b n s).clockMs = s.clockMs := by
  induction n generalizing s with
  | zero => simp [runIntake]
  | succ n ih =>
    simp only [runIntake]
    (repeat' split) <;> simp [ih]

@[simp] theorem bedRequestRow_keeps (b : Fin 24) (code : BedCode) (s : State) :
    (bedRequestRow b code s).pending = s.pending ∧ (bedRequestRow b code s).rosterLoaded = s.rosterLoaded ∧
    (bedRequestRow b code s).yardStop = s.yardStop ∧ (bedRequestRow b code s).cranesLoaded = s.cranesLoaded ∧
    (bedRequestRow b code s).clockMs = s.clockMs := by
  simp only [bedRequestRow]
  simp

@[simp] theorem directoryRow_keeps (offset : Nat) (value : Word) (s : State) :
    (directoryRow offset value s).pending = s.pending ∧
    (directoryRow offset value s).rosterLoaded = s.rosterLoaded ∧
    (directoryRow offset value s).yardStop = s.yardStop ∧
    (directoryRow offset value s).cranesLoaded = s.cranesLoaded ∧ (directoryRow offset value s).clockMs = s.clockMs := by
  simp only [directoryRow]
  simp

end Sys2Proof.Machine
end

