-- ==== Sys2Proof/Laws/Calm.lean ====
section
/-! SUPPORT. A calm part: what a command ends with there, and a host write and the intake read of a bed
carried through in one command. -/

namespace Sys2Proof.Machine

/-! ### What a command ends with -/

theorem tryLower_calm (c : Fin 2) (s : State) (h : s.awaitsLowering c = false) : tryLower c s = s := by
  simp only [State.awaitsLowering] at h
  simp only [tryLower]
  split
  · rfl
  · rename_i i hi
    rw [hi] at h
    simp only [Bool.and_eq_false_iff, decide_eq_false_iff_not] at h
    rw [if_neg]
    intro k
    rcases h with h | h
    · exact h k.1
    · simp [h] at k

theorem changedWords_self (w : List (Nat × Word)) (h : ∀ x ∈ w, wordFor w x.1 = some x.2) : changedWords w w = [] := by
  simp only [changedWords, List.filter_eq_nil_iff, decide_eq_true_eq, Decidable.not_not]
  intro x hx
  exact h x hx

theorem vector_set_get {α : Type} {n : Nat} (v : Vector α n) (i : Fin n) : v.set i (v.get i) = v := by
  apply Vector.ext
  intro j hj
  simp only [Vector.getElem_set]
  split
  · rename_i e
    subst e
    rfl
  · rfl

theorem setCrane_self (s : State) (c : Fin 2) : s.setCrane c (s.crane c) = s := by
  simp only [State.setCrane, State.crane]
  rw [vector_set_get]

theorem refresh_nil (r : Region) (index : Nat) (s : State) : refresh r index [] s = s := by
  simp [refresh]

theorem setCab_self (c : Fin 2) (s : State) : setCab c (s.cab c) s = s := by
  have w : changedWords (cabWords (s.cab c)) (cabWords (s.cab c)) = [] := by
    apply changedWords_self
    intro x hx
    simp only [cabWords, List.mem_cons, List.not_mem_nil, or_false] at hx
    rcases hx with hx | hx <;> subst hx <;> rfl
  have e : { s.crane c with cab := s.cab c } = s.crane c := rfl
  simp only [setCab, w, e, setCrane_self, refresh_nil]

theorem tryOutbox_nil (n : Nat) (s : State) (h : s.path.outbox = []) : tryOutbox n s = s := by
  cases n with
  | zero => rfl
  | succ n => simp only [tryOutbox, h]

theorem handNotices_calm (s : State) (h : s.notices.writeList = []) : handNotices s = s := by
  simp [handNotices, h]

theorem enlistKept_nil (s : State) (h : s.path.kept = []) : enlistKept s = s := by simp only [enlistKept, h, List.foldl_nil]

/-- With nothing handed, no event kept, nothing on the write list and a calm runway, a command ends with ATTN
and the port alone. -/
theorem finish_calm (s : State) (ho : s.path.outbox = []) (hk : s.path.kept = []) (hn : s.notices.writeList = []) (hr : s.RunwayCalm) :
    finish s = givePort (evaluateAttn s) := by
  have lower : forCranes tryLower s = s := by
    simp only [forCranes, List.finRange_succ, List.finRange_zero, List.map_nil, List.map_cons, List.foldl_cons,
      List.foldl_nil]
    rw [tryLower_calm _ s (hr _), tryLower_calm _ s (hr _)]
  simp only [finish]
  rw [tryOutbox_nil _ s ho, lower, handNotices_calm s hn, tryOutbox_nil _ s ho,
    enlistKept_nil (evaluateAttn s) hk]

/-! ### The judging does not look at the upstream port -/

theorem judgeWord_host (s : State) (h : HostPort) (js : List JudgedWord) (j : JudgedWord) :
    State.judgeWord { s with host := h } js j = s.judgeWord js j := rfl

theorem gather_host (s : State) (h : HostPort) (js rest : List JudgedWord) :
    State.gather { s with host := h } js rest = s.gather js rest := by
  induction rest with
  | nil => rfl
  | cons j rest ih => simp only [State.gather, judgeWord_host, ih]

theorem judge_host (s : State) (h : HostPort) (addr : Nat) (words : List WriteWord) :
    State.judge { s with host := h } addr words = s.judge addr words := gather_host s h _ _

/-- What gathering the answers of some judged words can give: a refusal is that of the first word refused, and a pass says
that no word was (R31). -/
theorem gather_decides (s : State) (js words : List JudgedWord) :
    (∀ a reason, s.gather js words = .refused a reason → ∃ before j behind, words = before ++ j :: behind ∧ j.addr = a ∧
      s.judgeWord js j = .refuse reason ∧ ∀ k ∈ before, ∀ x, s.judgeWord js k ≠ .refuse x) ∧
    (∀ twins events, s.gather js words = .passed twins events → ∀ k ∈ words, ∀ x, s.judgeWord js k ≠ .refuse x) := by
  induction words with
  | nil => simp [State.gather]
  | cons j rest ih =>
    have behind (n : ∀ x, s.judgeWord js j ≠ .refuse x) (a : Nat) (reason : Code) (h : s.gather js rest = .refused a reason) :
        ∃ before k behind, j :: rest = before ++ k :: behind ∧ k.addr = a ∧ s.judgeWord js k = .refuse reason ∧
          ∀ k ∈ before, ∀ x, s.judgeWord js k ≠ .refuse x := by
      obtain ⟨before, k, left, split, at_, refused, passed⟩ := ih.1 a reason h
      refine ⟨j :: before, k, left, by rw [split]; rfl, at_, refused, fun y hy => ?_⟩
      rcases List.mem_cons.1 hy with rfl | hy
      · exact n
      · exact passed y hy
    have all (n : ∀ x, s.judgeWord js j ≠ .refuse x) (twins : List (WordRef × Word)) (events : List HostEvent)
        (h : s.gather js rest = .passed twins events) : ∀ k ∈ j :: rest, ∀ x, s.judgeWord js k ≠ .refuse x := by
      intro k hk
      rcases List.mem_cons.1 hk with rfl | hk
      · exact n
      · exact ih.2 twins events h k hk
    cases answer : s.judgeWord js j with
    | refuse reason =>
      simp only [State.gather, answer, Judgement.refused.injEq, reduceCtorEq, false_implies, implies_true, and_true, and_imp]
      rintro _ _ rfl rfl
      exact ⟨[], j, rest, rfl, rfl, answer, fun _ h => nomatch h⟩
    | pass =>
      simp only [State.gather, answer]
      exact ⟨behind (by simp [answer]), all (by simp [answer])⟩
    | twin w =>
      simp only [State.gather, answer]
      cases h : s.gather js rest with
      | refused a reason =>
        exact ⟨fun _ _ e => behind (by simp [answer]) _ _ (h.trans e), fun _ _ e => nomatch e⟩
      | passed twins events => exact ⟨fun _ _ e => (nomatch e), fun _ _ _ => all (by simp [answer]) _ _ h⟩
    | request e =>
      simp only [State.gather, answer]
      cases h : s.gather js rest with
      | refused a reason =>
        exact ⟨fun _ _ e => behind (by simp [answer]) _ _ (h.trans e), fun _ _ e => nomatch e⟩
      | passed twins events => exact ⟨fun _ _ e => (nomatch e), fun _ _ _ => all (by simp [answer]) _ _ h⟩

/-- One whole word that its owner passes with a request or an acknowledgement. -/
theorem judge_one_request (s : State) (addr : Nat) (w : WordRef) (v : Word) (e : HostEvent)
    (hl : locate s.path.windows addr = some w) (ho : s.isOpenWord w = false)
    (ha : s.ownerAnswer [⟨addr, w, v, true⟩] ⟨addr, w, v, true⟩ = .request e) :
    s.judge addr (fullWords [v]) = .passed [] [e] := by
  have j : judgedWords s.path.windows addr (fullWords [v]) = [⟨addr, w, v, true⟩] := by
    simp only [fullWords, List.map_cons, List.map_nil, judgedWords, hl]
    rfl
  simp only [State.judge, j, State.gather, State.judgeWord, ho, Bool.false_eq_true, if_false, if_true, ha]

/-! ### A host write in a calm part -/

/-- A WRITE without a twin word is finished as soon as the memory has answered it (R34). -/
theorem writeDone_untwinned (u : UpTransfer) (ws : List WriteWord) (s : State) (h : u.twins = []) :
    writeDone u ws s = finishWrite (freeReserved (updateCopies u ws { s with mem := setHostWords s.mem u.xfer.addr ws })) := by
  simp only [writeDone]
  rw [if_pos (Or.inl h)]

/-- In a calm part a WRITE that every owner passes is in memory, its words are in the owners' copies, its
events are handed in address order, and it is answered DONE (R30, R34). -/
theorem hostWriteNow_calm (s : State) (addr : Nat) (words : List WriteWord) (events : List HostEvent) (h : s.Calm)
    (fits : addr + words.length ≤ Config.memoryWords) (enabled : words.all (fun w => decide (w.enables = 0)) = false)
    (passes : s.judge addr words = .passed [] events) :
    hostWriteNow addr words s =
      respond .done [] (handEvents events (updateCopies (issuedWrite addr words events) words (s.written addr words events))) := by
  obtain ⟨running, _, ⟨up, backlog, port, current, queue, answered, returned, outbox, kept, wait⟩, writes, calm⟩ := h
  rcases hh : s.host with ⟨hup, hback, hreplies⟩
  simp only [hh] at up backlog
  subst up
  subst backlog
  have arrived : arrive ⟨addr, .write words⟩ s =
      { s with host := ⟨some ⟨⟨addr, .write words⟩, .waiting, false, [], [], false, false⟩, [], []⟩ } := by
    simp only [arrive, State.withHost, hh, List.nil_append, List.length_nil, letIn, enterPort, transferLength]
    rw [if_neg (by omega)]
    simp only [enabled, Bool.false_eq_true, if_false, State.withUp, State.withHost, Option.isNone_none, if_true]
  have taken : takeTransfer { s with host := ⟨some ⟨⟨addr, .write words⟩, .waiting, false, [], [], false, false⟩, [], []⟩ } =
      { s with host := ⟨some ⟨⟨addr, .write words⟩, .taken, true, [], events, false, false⟩, [], []⟩ } := by
    have held : ∀ (v : HostPort) (t : HostTransfer), State.transferHeld { s with host := v } t = false := by
      intro v t
      simp [State.transferHeld, State.held, State.swapHolds, State.swapReadOut, queue, current, answered, returned]
    have path : { s.path with slotWait := [] } = s.path := by rw [← wait]
    simp [takeTransfer, State.waitsFree, transferIsWrite, held, takeWrite, running, takeRunning, judge_host, passes, passTransfer, freeReserved,
      State.leaveSlotWait, wait, State.withUp, State.withHost, path]
  have issued : finish { s with host := ⟨some ⟨⟨addr, .write words⟩, .taken, true, [], events, false, false⟩, [], []⟩ } =
      { s with host := ⟨some ⟨⟨addr, .write words⟩, .issued, true, [], events, false, false⟩, [], []⟩,
               path := { s.path with port := .host, portMs := 0, lastServed := .host },
               dir := { s.dir with attn := s.attnWanted } } := by
    have k := finish_calm
      { s with host := ⟨some ⟨⟨addr, .write words⟩, .taken, true, [], events, false, false⟩, [], []⟩ } outbox kept writes calm
    have due := eventDue_calm (evaluateAttn
      { s with host := ⟨some ⟨⟨addr, .write words⟩, .taken, true, [], events, false, false⟩, [], []⟩ }) answered returned kept
      (by intro u e; cases e; simp)
    rw [k, givePort_of_none_due _ due]
    simp [evaluateAttn, arbitrate, port, State.hostCandidate, ownIssue, current, queue, hostIssue, State.attnWanted]
  have up : (updateCopies (issuedWrite addr words events) words (s.written addr words events)).host.up =
      some (issuedWrite addr words events) := by
    rw [(updateCopies_keeps _ _ _).2.2.1]
    rfl
  have base : ({ s with
      host := ⟨some ⟨⟨addr, .write words⟩, .issued, true, [], events, false, false⟩, [], []⟩,
      path := { s.path with port := .free, portMs := 0, lastServed := .host },
      dir := { s.dir with attn := s.attnWanted },
      mem := setHostWords s.mem addr words } : State) = s.written addr words events := by
    simp [State.written, issuedWrite]
  have free : freeReserved (updateCopies (issuedWrite addr words events) words (s.written addr words events)) =
      updateCopies (issuedWrite addr words events) words (s.written addr words events) := by
    simp only [freeReserved, up]
    rfl
  simp only [hostWriteNow, hh, Option.isSome_none, Bool.false_eq_true, if_false]
  rw [arrived, taken, issued]
  change writeDone (issuedWrite addr words events) words _ = _
  rw [writeDone_untwinned _ _ _ rfl]
  change finishWrite (freeReserved (updateCopies (issuedWrite addr words events) words { s with
      host := ⟨some ⟨⟨addr, .write words⟩, .issued, true, [], events, false, false⟩, [], []⟩,
      path := { s.path with port := .free, portMs := 0, lastServed := .host },
      dir := { s.dir with attn := s.attnWanted },
      mem := setHostWords s.mem addr words })) = _
  rw [base, free]
  simp only [finishWrite, up]
  rfl

/-- With no transfer behind it, a response leaves the port empty. -/
theorem respond_alone (r : Response) (data : List Word) (s : State) (h : s.host.backlog = []) :
    respond r data s = { s with host := ⟨none, [], [⟨r, data⟩]⟩ } := by
  simp only [respond, State.withHost, h, List.length_nil, letIn]

theorem written_backlog (s : State) (addr : Nat) (words : List WriteWord) (events : List HostEvent) :
    (s.written addr words events).host.backlog = [] := rfl

/-- The same for one word of a record that its owner passes with a request or an acknowledgement. -/
theorem writeRecord_calm (s : State) (r : Region) (index offset addr : Nat) (v : Word) (e : HostEvent) (h : s.Calm)
    (lies : s.WordLies r index offset addr) (owned : s.isOpenWord ⟨r, index, offset⟩ = false)
    (passes : s.ownerAnswer [⟨addr, ⟨r, index, offset⟩, v, true⟩] ⟨addr, ⟨r, index, offset⟩, v, true⟩ = .request e) :
    writeRecord r index offset [v] s =
      respond .done [] (handEvent (updateCopies (issuedWrite addr (fullWords [v]) [e]) (fullWords [v])
        (s.written addr (fullWords [v]) [e])) e) := by
  obtain ⟨place, found, below⟩ := lies
  simp only [writeRecord, place]
  exact hostWriteNow_calm s addr (fullWords [v]) [e] h
    (by simp only [fullWords, List.length_map, List.length_cons, List.length_nil]; omega)
    rfl (judge_one_request s addr ⟨r, index, offset⟩ v e found owned passes)

theorem handEvent_running (t : State) (e : HostEvent) (h : t.dir.lifecycle = .running) : handEvent t e = takeRequest e t := by
  cases e <;> simp [handEvent, takeRequest, State.running, h]

/-- A request row in a calm part: the word is in memory, its owner has taken the request, and the host has its
response (R30, R34). The word is none that an owner keeps a copy of. -/
theorem request_calm (s : State) (r : Region) (index offset addr : Nat) (v : Word) (e : HostEvent) (h : s.Calm)
    (lies : s.WordLies r index offset addr) (owned : s.isOpenWord ⟨r, index, offset⟩ = false)
    (passes : s.ownerAnswer [⟨addr, ⟨r, index, offset⟩, v, true⟩] ⟨addr, ⟨r, index, offset⟩, v, true⟩ = .request e)
    (copies : ∀ t : State, updateCopy t ⟨addr, ⟨r, index, offset⟩, v, true⟩ = t) :
    writeRecord r index offset [v] s = (takeRequest e (s.written addr (fullWords [v]) [e])).answeredDone := by
  rw [writeRecord_calm s r index offset addr v e h lies owned passes]
  obtain ⟨_, found, _⟩ := lies
  have running : (s.written addr (fullWords [v]) [e]).dir.lifecycle = .running := h.1
  have js : judgedWords s.path.windows addr (fullWords [v]) = [⟨addr, ⟨r, index, offset⟩, v, true⟩] := by
    simp only [fullWords, List.map_cons, List.map_nil, judgedWords, found]
    rfl
  have same : updateCopies (issuedWrite addr (fullWords [v]) [e]) (fullWords [v]) (s.written addr (fullWords [v]) [e]) =
      s.written addr (fullWords [v]) [e] := by
    simp only [updateCopies]
    split
    · change (judgedWords s.path.windows addr (fullWords [v])).foldl updateCopy _ = _
      rw [js]
      exact copies _
    · rfl
  rw [same, handEvent_running _ _ running]
  have host : (takeRequest e (s.written addr (fullWords [v]) [e])).host = (s.written addr (fullWords [v]) [e]).host := by
    simp
  rw [respond_alone _ _ _ (by rw [host]; rfl)]
  rfl

/-! ### The intake read of a bed in a calm part -/

theorem wordsAt_add (m : Memory) (w a b : Nat) : wordsAt m w (a + b) = wordsAt m w a ++ wordsAt m (w + a) b := by
  induction a generalizing w with
  | zero => simp [wordsAt]
  | succ a ih =>
    rw [Nat.succ_add, wordsAt, wordsAt, ih, List.cons_append, Nat.add_assoc, Nat.add_comm 1 a]

/-- The intake read of a bed record. -/
def intakeRead (b : Fin 24) : OwnRead := ⟨.bedIntake b, .bed, b.val * 80, 80⟩

theorem intakeRead_bursts (b : Fin 24) : (OwnItem.read (intakeRead b)).bursts =
    [.read .bed (b.val * 80) 16, .read .bed (b.val * 80 + 16) 16, .read .bed (b.val * 80 + 16 + 16) 16,
     .read .bed (b.val * 80 + 16 + 16 + 16) 16, .read .bed (b.val * 80 + 16 + 16 + 16 + 16) 16] := by
  simp [OwnItem.bursts, intakeRead, readBursts]

/-- A path on which a bed's intake read waits alone. -/
abbrev State.IntakeAlone (s : State) (b : Fin 24) : Prop :=
  s.host.up = none ∧ s.path.port = .free ∧ s.path.current = none ∧ s.path.queue = [.read (intakeRead b)] ∧
  s.path.answered = [] ∧ s.path.returned = [] ∧ s.path.outbox = [] ∧ s.path.kept = [] ∧ s.notices.writeList = [] ∧
  s.dir.restartPending = false ∧ s.RunwayCalm

/-- The state in which the read's data is handed. -/
def State.intakeHanded (s : State) : State :=
  { s with path := { s.path with port := .free, portMs := 0, current := none, queue := [], returned := [], lastServed := .own },
           dir := { s.dir with attn := s.attnWanted } }

/-- One burst of the read answered, and the next one issued. -/
theorem intake_burst (b : Fin 24) (n first : Nat) (next : Burst) (rest : List Burst) (got : List Word) (s : State)
    (port : s.path.port = .own (.read .bed first 16)) (cur : s.path.current = some ⟨.read (intakeRead b), next :: rest, got⟩)
    (up : s.host.up = none) (out : s.path.outbox = []) (kept : s.path.kept = []) (wl : s.notices.writeList = []) (calm : s.RunwayCalm) :
    runIntake b (n + 1) s = runIntake b n
      { s with
        path := { s.path with
          port := .own next, portMs := 0, lastServed := .own,
          current := some ⟨.read (intakeRead b), rest, got ++ wordsAt s.mem (s.regionBase .bed + first) 16⟩ },
        dir := { s.dir with attn := s.attnWanted } } := by
  have done : portDone s = { s with path := { s.path with
      port := .free, portMs := 0, current := some ⟨.read (intakeRead b), next :: rest, got ++ wordsAt s.mem (s.regionBase .bed + first) 16⟩ } } := by
    simp [portDone, port, cur, burstDone, State.withPath, State.burstAddr]
  have fin := finish_calm { s with path := { s.path with
      port := .free, portMs := 0, current := some ⟨.read (intakeRead b), next :: rest, got ++ wordsAt s.mem (s.regionBase .bed + first) 16⟩ } } out kept wl calm
  simp only [runIntake, cur, port]
  rw [if_pos (by simp [OwnItem.isIntake, intakeRead]), done, fin, givePort_within_item _ rfl]
  simp [evaluateAttn, arbitrate, State.hostCandidate, up, ownIssue, State.withPath, State.attnWanted]

/-- The last burst answered: the read returns. -/
theorem intake_last (b : Fin 24) (n first : Nat) (got : List Word) (s : State)
    (port : s.path.port = .own (.read .bed first 16)) (cur : s.path.current = some ⟨.read (intakeRead b), [], got⟩)
    (up : s.host.up = none) (out : s.path.outbox = []) (kept : s.path.kept = []) (wl : s.notices.writeList = []) (calm : s.RunwayCalm)
    (queue : s.path.queue = []) (returned : s.path.returned = []) :
    runIntake b (n + 2) s =
      bedIntakeDone b (some (got ++ wordsAt s.mem (s.regionBase .bed + first) 16))
        { s with path := { s.path with port := .free, portMs := 0, current := none, returned := [] },
                 dir := { s.dir with attn := s.attnWanted } } := by
  have done : portDone s = { s with path := { s.path with
      port := .free, portMs := 0, current := none,
      returned := [⟨intakeRead b, some (got ++ wordsAt s.mem (s.regionBase .bed + first) 16), 0⟩] } } := by
    simp [portDone, port, cur, burstDone, itemDone, State.withPath, State.burstAddr, returned]
  have fin := finish_calm { s with path := { s.path with
      port := .free, portMs := 0, current := none,
      returned := [⟨intakeRead b, some (got ++ wordsAt s.mem (s.regionBase .bed + first) 16), 0⟩] } } out kept wl calm
  have idle := givePort_idle (evaluateAttn { s with path := { s.path with
      port := .free, portMs := 0, current := none,
      returned := [⟨intakeRead b, some (got ++ wordsAt s.mem (s.regionBase .bed + first) 16), 0⟩] } }) queue rfl
    (by simp [evaluateAttn, State.hostCandidate, up])
  simp only [runIntake, cur, port]
  rw [if_pos (by simp [OwnItem.isIntake, intakeRead]), done, fin, idle]
  simp [evaluateAttn, queue, State.attnWanted, intakeRead, ownReadDone, handRead, State.withPath]

/-- The state in which a burst of the read is under way. -/
def State.intakeAt (s : State) (b : Fin 24) (first : Nat) (rest : List Burst) (got : List Word) : State :=
  { s with
    path := { s.path with
      port := .own (.read .bed first 16), portMs := 0, lastServed := .own, queue := [],
      current := some ⟨.read (intakeRead b), rest, got⟩ },
    dir := { s.dir with attn := s.attnWanted } }

theorem intakeAt_burst (b : Fin 24) (n first next : Nat) (rest : List Burst) (got : List Word) (s : State)
    (h : s.IntakeAlone b) :
    runIntake b (n + 1) (s.intakeAt b first (.read .bed next 16 :: rest) got) =
      runIntake b n (s.intakeAt b next rest (got ++ wordsAt s.mem (s.regionBase .bed + first) 16)) := by
  obtain ⟨up, -, -, -, -, -, out, kept, wl, -, calm⟩ := h
  exact intake_burst b n first (.read .bed next 16) rest got (s.intakeAt b first (.read .bed next 16 :: rest) got)
    rfl rfl up out kept wl calm

/-- In a calm part a bed's intake read returns the bed record as memory holds it, within the command that
asked for it (R6, R41). -/
theorem runIntake_calm (b : Fin 24) (s : State) (h : s.IntakeAlone b) :
    runIntake b intakeSteps (finish s) =
      bedIntakeDone b (some (wordsAt s.mem (s.regionBase .bed + b.val * 80) 80)) s.intakeHanded := by
  have h' := h
  obtain ⟨up, port, cur, queue, answered, returned, out, kept, wl, pend, calm⟩ := h
  have begun : finish s = s.intakeAt b (b.val * 80)
      [.read .bed (b.val * 80 + 16) 16, .read .bed (b.val * 80 + 16 + 16) 16,
       .read .bed (b.val * 80 + 16 + 16 + 16) 16, .read .bed (b.val * 80 + 16 + 16 + 16 + 16) 16] [] := by
    have due := eventDue_calm (evaluateAttn s) answered returned kept (by intro u e; simp [evaluateAttn, up] at e)
    rw [finish_calm s out kept wl calm, givePort_of_none_due _ due]
    simp [evaluateAttn, arbitrate, port, State.hostCandidate, up, ownIssue, cur, queue, pend, intakeRead_bursts,
      State.withPath, State.intakeAt]
  rw [begun, intakeSteps, intakeAt_burst b 5 _ _ _ _ s h', intakeAt_burst b 4 _ _ _ _ s h',
    intakeAt_burst b 3 _ _ _ _ s h', intakeAt_burst b 2 _ _ _ _ s h']
  have last := intake_last b 0 (b.val * 80 + 16 + 16 + 16 + 16)
    ([] ++ wordsAt s.mem (s.regionBase .bed + b.val * 80) 16 ++ wordsAt s.mem (s.regionBase .bed + (b.val * 80 + 16)) 16 ++
      wordsAt s.mem (s.regionBase .bed + (b.val * 80 + 16 + 16)) 16 ++
      wordsAt s.mem (s.regionBase .bed + (b.val * 80 + 16 + 16 + 16)) 16)
    (s.intakeAt b (b.val * 80 + 16 + 16 + 16 + 16) []
      ([] ++ wordsAt s.mem (s.regionBase .bed + b.val * 80) 16 ++ wordsAt s.mem (s.regionBase .bed + (b.val * 80 + 16)) 16 ++
      wordsAt s.mem (s.regionBase .bed + (b.val * 80 + 16 + 16)) 16 ++
      wordsAt s.mem (s.regionBase .bed + (b.val * 80 + 16 + 16 + 16)) 16))
    rfl rfl up out kept wl calm rfl returned
  have words : wordsAt s.mem (s.regionBase .bed + b.val * 80) 80 =
      [] ++ wordsAt s.mem (s.regionBase .bed + b.val * 80) 16 ++ wordsAt s.mem (s.regionBase .bed + (b.val * 80 + 16)) 16 ++
      wordsAt s.mem (s.regionBase .bed + (b.val * 80 + 16 + 16)) 16 ++
      wordsAt s.mem (s.regionBase .bed + (b.val * 80 + 16 + 16 + 16)) 16 ++
      wordsAt s.mem (s.regionBase .bed + (b.val * 80 + 16 + 16 + 16 + 16)) 16 := by
    rw [show (80 : Nat) = 16 + 16 + 16 + 16 + 16 from rfl, wordsAt_add, wordsAt_add, wordsAt_add, wordsAt_add,
      List.nil_append]
    simp only [Nat.add_assoc]
  rw [words]
  exact last

end Sys2Proof.Machine
end

