-- ==== Sys2Proof/Laws/Memory.lean ====
section
/-! SUPPORT. Works memory: what a store leaves and sets, and that every store keeps the canonical form. -/

namespace Sys2Proof.Machine

theorem byteAt_below (m : Memory) (lo a : Nat) (h : memoryWfFrom lo m = true) (ha : a < lo) : byteAt m a = 0 := by
  induction m generalizing lo with
  | nil => rfl
  | cons cell rest ih =>
    obtain ⟨k, b⟩ := cell
    simp only [memoryWfFrom, Bool.and_eq_true, decide_eq_true_eq] at h
    simp only [byteAt]
    rw [if_neg (by omega)]
    exact ih (k + 1) h.2 (by omega)

theorem memoryWfFrom_mono (m : Memory) (lo lo' : Nat) (h : memoryWfFrom lo m = true) (hle : lo' ≤ lo) :
    memoryWfFrom lo' m = true := by
  cases m with
  | nil => rfl
  | cons cell rest =>
    obtain ⟨k, b⟩ := cell
    simp only [memoryWfFrom, Bool.and_eq_true, decide_eq_true_eq] at h ⊢
    exact ⟨⟨by omega, h.1.2⟩, h.2⟩

theorem setByte_wfFrom (m : Memory) (lo a : Nat) (b : Byte) (h : memoryWfFrom lo m = true) (ha : lo ≤ a) :
    memoryWfFrom lo (setByte m a b) = true := by
  induction m generalizing lo with
  | nil =>
    simp only [setByte]
    split
    · rfl
    · simp_all [memoryWfFrom]
  | cons cell rest ih =>
    obtain ⟨k, c⟩ := cell
    have hc := h
    simp only [memoryWfFrom, Bool.and_eq_true, decide_eq_true_eq] at hc
    simp only [setByte]
    split
    · split
      · exact h
      · simp only [memoryWfFrom, Bool.and_eq_true, decide_eq_true_eq]
        exact ⟨⟨ha, by assumption⟩, ⟨by omega, hc.1.2⟩, hc.2⟩
    · split
      · split
        · exact memoryWfFrom_mono rest (k + 1) lo hc.2 (by omega)
        · simp only [memoryWfFrom, Bool.and_eq_true, decide_eq_true_eq]
          refine ⟨⟨ha, by assumption⟩, ?_⟩
          have e : a = k := by assumption
          rw [e]
          exact hc.2
      · simp only [memoryWfFrom, Bool.and_eq_true, decide_eq_true_eq]
        exact ⟨hc.1, ih (k + 1) hc.2 (by omega)⟩

theorem byteAt_setByte (m : Memory) (lo a : Nat) (b : Byte) (x : Nat) (h : memoryWfFrom lo m = true) :
    byteAt (setByte m a b) x = if x = a then b else byteAt m x := by
  induction m generalizing lo with
  | nil =>
    simp only [setByte]
    split
    · split
      · simp_all [byteAt]
      · rfl
    · simp only [byteAt, eq_comm]
  | cons cell rest ih =>
    obtain ⟨k, c⟩ := cell
    have hc := h
    simp only [memoryWfFrom, Bool.and_eq_true, decide_eq_true_eq] at hc
    have zero : ∀ y, y ≤ k → byteAt rest y = 0 := fun y hy => byteAt_below rest (k + 1) y hc.2 (by omega)
    simp only [setByte]
    split
    · rename_i hlt
      split
      · rename_i hb
        split
        · rename_i hx
          subst hx
          simp only [byteAt]
          rw [if_neg (by omega), zero x (by omega), hb]
        · rfl
      · simp only [byteAt, eq_comm (a := a)]
    · split
      · rename_i heq
        subst heq
        split
        · rename_i hb
          by_cases hx : x = a
          · subst hx
            simp [zero x (by omega), hb]
          · simp only [byteAt, if_neg hx]
            rw [if_neg (fun e => hx e.symm)]
        · simp only [byteAt]
          by_cases hx : x = a
          · simp [hx]
          · simp [hx, Ne.symm hx]
      · simp only [byteAt]
        by_cases hx : x = a
        · subst hx
          rw [if_neg (by omega), ih (k + 1) hc.2, if_pos rfl, if_pos rfl]
        · simp only [ih (k + 1) hc.2, if_neg hx]

theorem setByte_wf (m : Memory) (a : Nat) (b : Byte) (h : Memory.wf m = true) : Memory.wf (setByte m a b) = true :=
  setByte_wfFrom m 0 a b h (Nat.zero_le a)

theorem setWordBytes_wf (m : Memory) (w : Nat) (v : Word) (e : BitVec 4) (h : Memory.wf m = true) :
    Memory.wf (setWordBytes m w v e) = true := by
  simp only [setWordBytes, List.foldl_cons, List.foldl_nil]
  have step : ∀ (m : Memory) (i : Nat), Memory.wf m = true →
      Memory.wf (if e.getLsbD i then setByte m (4 * w + i) (byteOf v i) else m) = true := by
    intro m i hm
    split
    · exact setByte_wf _ _ _ hm
    · exact hm
  exact step _ 3 (step _ 2 (step _ 1 (step _ 0 h)))

theorem setWord_wf (m : Memory) (w : Nat) (v : Word) (h : Memory.wf m = true) : Memory.wf (setWord m w v) = true :=
  setWordBytes_wf m w v _ h

theorem setWords_wf (m : Memory) (w : Nat) (ws : List (Option Word)) (h : Memory.wf m = true) :
    Memory.wf (setWords m w ws) = true := by
  induction ws generalizing m w with
  | nil => exact h
  | cons x rest ih =>
    cases x with
    | none => exact ih m (w + 1) h
    | some v => exact ih _ (w + 1) (setWord_wf m w v h)

theorem setHostWords_wf (m : Memory) (w : Nat) (ws : List WriteWord) (h : Memory.wf m = true) :
    Memory.wf (setHostWords m w ws) = true := by
  induction ws generalizing m w with
  | nil => exact h
  | cons x rest ih => exact ih _ (w + 1) (setWordBytes_wf m w x.value x.enables h)

/-- A byte of a word that is written: the enabled bytes of that word, and nothing else. -/
theorem byteAt_setWordBytes (m : Memory) (w : Nat) (v : Word) (e : BitVec 4) (a : Nat) (h : Memory.wf m = true) :
    byteAt (setWordBytes m w v e) a =
      if a / 4 = w ∧ e.getLsbD (a % 4) = true then byteOf v (a % 4) else byteAt m a := by
  simp only [setWordBytes, List.foldl_cons, List.foldl_nil]
  have step : ∀ (m : Memory) (i : Nat), Memory.wf m = true → i < 4 →
      Memory.wf (if e.getLsbD i then setByte m (4 * w + i) (byteOf v i) else m) = true ∧
      byteAt (if e.getLsbD i then setByte m (4 * w + i) (byteOf v i) else m) a =
        if a = 4 * w + i ∧ e.getLsbD i = true then byteOf v i else byteAt m a := by
    intro m i hm hi
    split
    · rename_i he
      refine ⟨setByte_wf _ _ _ hm, ?_⟩
      rw [byteAt_setByte m 0 _ _ _ hm]
      simp [he]
    · rename_i he
      exact ⟨hm, by simp [he]⟩
  have h0 := step m 0 h (by omega)
  have h1 := step _ 1 h0.1 (by omega)
  have h2 := step _ 2 h1.1 (by omega)
  have h3 := step _ 3 h2.1 (by omega)
  rw [h3.2, h2.2, h1.2, h0.2]
  have place : ∀ i, i < 4 → (a = 4 * w + i ↔ a / 4 = w ∧ a % 4 = i) := by
    intro i hi
    omega
  simp only [place 0 (by omega), place 1 (by omega), place 2 (by omega), place 3 (by omega)]
  by_cases hw : a / 4 = w
  · have r : a % 4 = 0 ∨ a % 4 = 1 ∨ a % 4 = 2 ∨ a % 4 = 3 := by omega
    rcases r with r | r | r | r <;> simp [hw, r]
  · simp [hw]

theorem byteAt_setWord (m : Memory) (w : Nat) (v : Word) (a : Nat) (h : Memory.wf m = true) :
    byteAt (setWord m w v) a = if a / 4 = w then byteOf v (a % 4) else byteAt m a := by
  have e : (15#4).getLsbD (a % 4) = true := by
    have r : a % 4 = 0 ∨ a % 4 = 1 ∨ a % 4 = 2 ∨ a % 4 = 3 := by omega
    rcases r with r | r | r | r <;> rw [r] <;> decide
  simp only [setWord, byteAt_setWordBytes m w v _ a h, e, and_true]

theorem word_of_bytes (v : Word) : byteOf v 3 ++ byteOf v 2 ++ byteOf v 1 ++ byteOf v 0 = v := by
  apply BitVec.eq_of_getLsbD_eq
  intro i hi
  simp only [byteOf, BitVec.getLsbD_append, BitVec.getLsbD_extractLsb']
  split
  · simp_all
  · split
    · have e : 8 * 1 + (i - 8) = i := by omega
      simp_all
    · split
      · have e : 8 * 2 + (i - 8 - 8) = i := by omega
        simp_all
      · have e : 8 * 3 + (i - 8 - 8 - 8) = i := by omega
        have l : i - 8 - 8 - 8 < 8 := by omega
        simp_all

/-- A whole word reads back, and every other word reads as before. -/
theorem wordAt_setWord (m : Memory) (w : Nat) (v : Word) (x : Nat) (h : Memory.wf m = true) :
    wordAt (setWord m w v) x = if x = w then v else wordAt m x := by
  simp only [wordAt, byteAt_setWord m w v _ h]
  have d3 : (4 * x + 3) / 4 = x := by omega
  have d2 : (4 * x + 2) / 4 = x := by omega
  have d1 : (4 * x + 1) / 4 = x := by omega
  have d0 : 4 * x / 4 = x := by omega
  have m3 : (4 * x + 3) % 4 = 3 := by omega
  have m2 : (4 * x + 2) % 4 = 2 := by omega
  have m1 : (4 * x + 1) % 4 = 1 := by omega
  have m0 : 4 * x % 4 = 0 := by omega
  rw [d3, d2, d1, d0, m3, m2, m1, m0]
  split
  · exact word_of_bytes v
  · rfl

/-- A burst writes no byte outside its words. -/
theorem byteAt_setWords_outside (m : Memory) (w : Nat) (ws : List (Option Word)) (a : Nat) (h : Memory.wf m = true)
    (ha : a / 4 < w ∨ w + ws.length ≤ a / 4) : byteAt (setWords m w ws) a = byteAt m a := by
  induction ws generalizing m w with
  | nil => rfl
  | cons x rest ih =>
    simp only [List.length_cons] at ha
    cases x with
    | none => exact ih m (w + 1) h (by omega)
    | some v =>
      rw [setWords, ih _ (w + 1) (setWord_wf m w v h) (by omega), byteAt_setWord m w v a h, if_neg (by omega)]

/-- A host write writes no byte outside its words. -/
theorem byteAt_setHostWords_outside (m : Memory) (w : Nat) (ws : List WriteWord) (a : Nat) (h : Memory.wf m = true)
    (ha : a / 4 < w ∨ w + ws.length ≤ a / 4) : byteAt (setHostWords m w ws) a = byteAt m a := by
  induction ws generalizing m w with
  | nil => rfl
  | cons x rest ih =>
    simp only [List.length_cons] at ha
    rw [setHostWords, ih _ (w + 1) (setWordBytes_wf m w x.value x.enables h) (by omega),
      byteAt_setWordBytes m w x.value x.enables a h, if_neg (by omega)]

end Sys2Proof.Machine
end

