-- ==== Sys2Proof/Laws/Settle.lean ====
section
/-! SUPPORT. How a command ends: what settling leaves as it was when the owners have handed nothing, or one event. -/

namespace Sys2Proof.Machine

theorem settledAs_refl (u : State) : u.SettledAs u := rfl

theorem settledAs_trans {a b c : State} (h : a.SettledAs b) (k : b.SettledAs c) : a.SettledAs c := by
  rw [State.SettledAs] at *
  rw [k, h]

theorem settledAs_path (u : State) (p : PathUnit) : u.SettledAs { u with path := p } := rfl

theorem handNotices_settled (s : State) : s.SettledAs (handNotices s) := by
  simp only [handNotices]
  split <;> rfl

theorem leaveSlotWait_settled (s : State) (p : Party) : s.SettledAs (s.leaveSlotWait p) := rfl

theorem joinSlotWait_settled (s : State) (p : Party) : s.SettledAs (s.joinSlotWait p) := by
  simp only [State.joinSlotWait]
  split <;> rfl

theorem enlistKept_settled (s : State) : s.SettledAs (enlistKept s) :=
  foldl_induct (fun t => s.SettledAs t) enlistJob
    (fun t j h => settledAs_trans h (by
      simp only [enlistJob]
      split
      · rfl
      · exact joinSlotWait_settled t _)) _ s rfl

theorem enterGroup_settled (atHead : Bool) (g : Group) (s : State) : s.SettledAs (enterGroup atHead g s) := rfl

/-- An event whose forming changes no owner, and after which its owner goes on to nothing, settles without changing
one. -/
theorem tryJob_settled (j : Job) (s : State) (on : ∀ t, handed j t = t) (h : s.SettledAs (form j s).1) :
    s.SettledAs (tryJob j s) := by
  simp only [tryJob, settleJob, on]
  split
  · exact settledAs_trans h (leaveSlotWait_settled _ _)
  · split
    · exact settledAs_trans (settledAs_trans h (leaveSlotWait_settled _ _)) (enterGroup_settled _ _ _)
    · split
      · exact leaveSlotWait_settled _ _
      · split
        · exact settledAs_path _ _
        · exact settledAs_trans (settledAs_path _ _) (joinSlotWait_settled _ _)

theorem ownIssue_settled (s t : State) (h : ownIssue s = some t) : s.SettledAs t := by
  simp only [ownIssue] at h
  (repeat' split at h) <;> first
    | (cases h; done)
    | (cases h; rfl)

theorem hostIssue_settled (s : State) : s.SettledAs (hostIssue s) := by
  simp only [hostIssue]
  split <;> rfl

theorem arbitrate_settled (s : State) : s.SettledAs (arbitrate s) := by
  simp only [arbitrate]
  split
  · split
    · cases h : ownIssue s with
      | none => exact hostIssue_settled s
      | some t =>
        simp only
        split
        · exact ownIssue_settled s t h
        · exact hostIssue_settled s
    · cases h : ownIssue s with
      | none => rfl
      | some t => exact ownIssue_settled s t h
  · rfl

theorem arbitrate_notices (s : State) : (arbitrate s).notices = s.notices := by
  simp only [arbitrate]
  split
  · split
    · cases h : ownIssue s with
      | none =>
        simp only [hostIssue]
        split <;> rfl
      | some t =>
        simp only [ownIssue] at h
        (repeat' split at h) <;> first
          | (cases h; done)
          | (cases h; simp only [hostIssue]; (repeat' split) <;> rfl)
    · cases h : ownIssue s with
      | none => rfl
      | some t =>
        simp only [ownIssue] at h
        (repeat' split at h) <;> first
          | (cases h; done)
          | (cases h; rfl)
  · rfl

theorem givePort_settled (s : State) : s.SettledAs (givePort s) := by
  rcases givePort_cases s with h | h <;> rw [h]
  exact arbitrate_settled s

theorem givePort_notices (s : State) : (givePort s).notices = s.notices := by
  rcases givePort_cases s with h | h <;> rw [h]
  exact arbitrate_notices s

theorem evaluateAttn_settled (s : State) : s.SettledAs (evaluateAttn s) := rfl

/-- With nothing handed but notices, the events tried change no owner. -/
theorem tryOutbox_notices (n : Nat) (s : State) (h : s.path.outbox = [] ∨ s.path.outbox = [.notices]) :
    s.SettledAs (tryOutbox n s) := by
  rcases h with h | h
  · rw [tryOutbox_nil n s h]
  · cases n with
    | zero => rfl
    | succ n =>
      have step : tryOutbox (n + 1) s = tryOutbox n (tryJob .notices (s.withPath { s.path with outbox := [] })) := by
        simp only [tryOutbox, h]
      have tried := tryJob_settled .notices (s.withPath { s.path with outbox := [] }) (fun _ => rfl) rfl
      have out : (tryJob .notices (s.withPath { s.path with outbox := [] })).path.outbox = [] := by
        simp only [tryJob, settleJob, form, handed]
        (repeat' split) <;> first | rfl | (simp only [State.joinSlotWait]; split <;> rfl)
      rw [step, tryOutbox_nil n _ out]
      exact settledAs_trans (settledAs_path s _) tried

theorem awaitsLowering_settled {u t : State} (h : u.SettledAs t) (c : Fin 2) : t.awaitsLowering c = u.awaitsLowering c := by
  rw [h]
  rfl

theorem runwayCalm_settled {u t : State} (h : u.SettledAs t) (k : u.RunwayCalm) : t.RunwayCalm := by
  rw [h]
  exact k

/-- A state whose handed events have been tried, with a calm runway, ends its command with its notices, the
arbiter and ATTN alone. -/
theorem finish_tried (s u : State) (tried : tryOutbox outboxFuel s = u) (out : u.path.outbox = []) (calm : u.RunwayCalm) :
    u.SettledAs (finish s) := by
  have lower : forCranes tryLower u = u := by
    simp only [forCranes, List.finRange_succ, List.finRange_zero, List.map_nil, List.map_cons, List.foldl_cons,
      List.foldl_nil]
    rw [tryLower_calm _ u (calm _), tryLower_calm _ u (calm _)]
  simp only [finish, tried, lower]
  have handed := handNotices_settled u
  have box : (handNotices u).path.outbox = [] ∨ (handNotices u).path.outbox = [.notices] := by
    simp only [handNotices]
    split
    · right
      simp [handJob, out]
    · exact Or.inl out
  exact settledAs_trans (settledAs_trans (settledAs_trans (settledAs_trans handed (tryOutbox_notices _ _ box))
    (evaluateAttn_settled _)) (enlistKept_settled _)) (givePort_settled _)

/-- With nothing handed and a calm runway. -/
theorem finish_settled (s : State) (out : s.path.outbox = []) (calm : s.RunwayCalm) : s.SettledAs (finish s) :=
  finish_tried s s (tryOutbox_nil _ s out) out calm

/-- One event handed, whose group is admitted at once, with nothing that its owner goes on to. -/
theorem finish_admitted (j : Job) (s after : State) (spans : List Span) (c : Completion) (out : s.path.outbox = [j])
    (formed : form j (s.withPath { s.path with outbox := [] }) = (after, some (spans, c)))
    (admissible : (s.withPath { s.path with outbox := [] }).admissible (.owner j) spans = true)
    (alone : (s.withPath { s.path with outbox := [] }).meetsTaking spans = false)
    (on : ∀ t, handed j t = t) (rest : after.path.outbox = []) (calm : after.RunwayCalm) : after.SettledAs (finish s) := by
  have tried : tryOutbox outboxFuel s = enterGroup false ⟨c, spans⟩ (after.leaveSlotWait (.owner j)) := by
    have step (n : Nat) : tryOutbox (n + 1) s = tryOutbox n (tryJob j (s.withPath { s.path with outbox := [] })) := by
      simp only [tryOutbox, out]
    rw [show outboxFuel = 119 + 1 from rfl, step 119]
    simp only [tryJob, settleJob, formed, admissible, alone, Bool.and_false, Bool.not_false, Bool.and_true, if_true, on]
    exact tryOutbox_nil _ _ rest
  exact settledAs_trans (settledAs_trans (leaveSlotWait_settled _ _) (enterGroup_settled _ _ _))
    (finish_tried s _ tried rest calm)

theorem arbitrate_host (s : State) (h : s.hostCandidate = false) : (arbitrate s).host = s.host := by
  simp only [arbitrate, h]
  split
  · simp only [Bool.false_eq_true, if_false]
    cases k : ownIssue s with
    | none => rfl
    | some t =>
      simp only [ownIssue] at k
      (repeat' split at k) <;> first
        | (cases k; done)
        | (cases k; rfl)
  · rfl

theorem givePort_host (s : State) (h : s.hostCandidate = false) : (givePort s).host = s.host := by
  rcases givePort_cases s with k | k <;> rw [k]
  exact arbitrate_host s h

/-- With no host transfer taken, what ends a command leaves the upstream port alone. -/
theorem finish_host (s : State) (h : s.hostCandidate = false) : (finish s).host = s.host := by
  have k : ∀ u : State, u.host = s.host → (givePort (enlistKept (evaluateAttn u))).host = s.host := by
    intro u e
    have f : (enlistKept (evaluateAttn u)).host = u.host := by simp [evaluateAttn]
    rw [givePort_host]
    · rw [f, e]
    · simp only [State.hostCandidate, f, e]
      exact h
  exact k _ (by simp)

/-- ATTN after any command (R178). -/
theorem finish_attn (s : State) : (finish s).dir.attn = (finish s).attnWanted := by
  have k : ∀ u : State, (givePort (enlistKept (evaluateAttn u))).dir.attn =
      (givePort (enlistKept (evaluateAttn u))).attnWanted := by
    intro u
    have n : (givePort (enlistKept (evaluateAttn u))).notices = u.notices := by
      rw [givePort_notices]
      simp [evaluateAttn]
    have d : (givePort (enlistKept (evaluateAttn u))).dir = { u.dir with attn := u.attnWanted } := by
      simp [evaluateAttn]
    simp only [State.attnWanted, n, d]
  exact k _

end Sys2Proof.Machine
end

