-- ==== Sys2Proof/Laws/Exec.lean ====
section
/-! SUPPORT. What every command does: it answers with a settled state and leaves the queue alone; a step is
a command or a short tick; what power-on reset leaves; and the reading of a clean report block. -/

namespace Sys2Proof.Machine

/-- Every command answers next, with a state whose events are settled, and leaves the queue alone. -/
theorem exec_answer (c : Instr) (s : State) : ∃ u, exec c s = .next (finish u) ∧ u.pending = s.pending := by
  cases c <;> simp only [exec]
  case memoryResponse a => cases a <;> exact ⟨_, rfl, by simp⟩
  case indexMarker c e => cases e <;> exact ⟨_, rfl, by simp⟩
  case scrap p => by_cases h : p = 0 <;> exact ⟨_, rfl, by simp [h]⟩
  case free p => by_cases h : p = 0 <;> exact ⟨_, rfl, by simp [h]⟩
  all_goals exact ⟨_, rfl, by simp⟩

/-- A step is the front command on the queue's rest, or a short tick on an empty queue. -/
theorem step_cases {s t : State} (h : step s = .next t) :
    (∃ c rest, s.pending = c :: rest ∧ exec c { s with pending := rest } = .next t) ∨ (s.pending = [] ∧ t = tick s) := by
  simp only [step] at h
  split at h
  · next c rest k => exact .inl ⟨c, rest, k, h⟩
  · next k => cases h; exact .inr ⟨k, rfl⟩

/-- What `exec` answers is settled. -/
theorem exec_finish {c : Instr} {s t : State} (h : exec c s = .next t) : ∃ u, t = finish u ∧ u.pending = s.pending := by
  obtain ⟨u, k, p⟩ := exec_answer c s
  rw [h] at k
  cases k
  exact ⟨u, rfl, p⟩

/-- What a step answers is settled. -/
theorem step_finish {s t : State} (h : step s = .next t) : ∃ u, t = finish u := by
  rcases step_cases h with ⟨c, rest, _, k⟩ | ⟨_, rfl⟩
  · obtain ⟨u, e, _⟩ := exec_finish k
    exact ⟨u, e⟩
  · exact ⟨_, rfl⟩

/-- An empty queue has no active move. -/
theorem activeMove_of_empty (s : State) (c : Fin 2) (h : (s.cab c).queue = []) : s.activeMove c = none := by
  simp [State.activeMove, h]

/-- Cranes with no move leave the runway calm. -/
theorem runwayCalm_of_empty (s : State) (h : ∀ c : Fin 2, (s.cab c).queue = []) : s.RunwayCalm := by
  intro c
  simp [State.awaitsLowering, activeMove_of_empty s c (h c)]

theorem powerOn_cab (p : PathUnit) (d : DirectoryUnit) (s : State) (c : Fin 2) : ((powerOn p d s).cab c).queue = [] := by
  simp [powerOn, State.cab, State.crane, Vector.get, powerOnCrane, CabSide.reset]

theorem powerOn_settled (p : PathUnit) (d : DirectoryUnit) (s : State) (h : p.outbox = []) :
    (powerOn p d s).SettledAs (finish (powerOn p d s)) :=
  finish_settled _ h (runwayCalm_of_empty _ (powerOn_cab p d s))

theorem powerOn_path (p : PathUnit) (d : DirectoryUnit) (s : State) (h : p.outbox = []) (n : p.kept = [])
    (k : p.port ≠ .free) :
    (finish (powerOn p d s)).path = p := by
  rw [finish_calm _ h n rfl (runwayCalm_of_empty _ (powerOn_cab p d s))]
  rcases givePort_cases (evaluateAttn (powerOn p d s)) with e | e <;> rw [e]
  · rfl
  · simp [arbitrate, evaluateAttn, powerOn, k]

/-- Power-on reset leaves every output off (R183). -/
theorem powerOn_outputs (p : PathUnit) (d : DirectoryUnit) (s : State) :
    (∀ b, ((powerOn p d s).steamBed b).valve = false) ∧
    (∀ c, ∀ q ∈ allPermits, permitOf ((powerOn p d s).mon c).permits q = false) ∧
    (∀ l, ((powerOn p d s).loop l).tx = .released) ∧
    (∀ c, ((powerOn p d s).cab c).slot = none ∧ ((powerOn p d s).cab c).shifter = none) := by
  refine ⟨?_, ?_, ?_, ?_⟩
  · intro b; simp [powerOn, State.reset, State.steamBed, State.bed, Vector.get, Bed.reset, SteamBed.reset]
  · intro c q _; cases q <;> simp [powerOn, State.mon, State.crane, Vector.get, powerOnCrane, Monitor.reset, ByPermit.all, permitOf]
  · intro l; simp [powerOn, State.loop, Vector.get, Loop.reset]
  · intro c; simp [powerOn, State.cab, State.crane, Vector.get, powerOnCrane, CabSide.reset]

/-- A refresh changes the queue of the path alone. -/
theorem refresh_path (r : Region) (i : Nat) (w : List (Nat × Word)) (s : State) :
    (refresh r i w s).path = { s.path with queue := (refresh r i w s).path.queue } := by
  simp only [refresh]; split <;> rfl

theorem high_low (w : BitVec 16) : (w.extractLsb' 8 8).toNat * 256 + (w.extractLsb' 0 8).toNat = w.toNat := by
  have h := w.isLt
  simp only [BitVec.extractLsb'_toNat, Nat.shiftRight_eq_div_pow]
  omega

/-- A report block is read as its report (R158; section 8.4). -/
theorem reportOf_block (k : ReportKind) (r : CabReport) :
    reportOf (reportBlock k r) = some ⟨k, r.tag.toNat, r.zone.toNat, r.piece.toNat, r.load.toNat⟩ := by
  simp only [reportBlock, withCheck, cleanChar, reportOf, List.map, List.cons_append, List.nil_append,
    List.foldl, List.any, high_low]
  cases k <;> simp [ReportKind.toNat, ReportKind.ofNat?]

end Sys2Proof.Machine
end

