-- ==== Sys2Proof/Laws/LoadChecks.lean ====
section
/-! SUPPORT. What a list of checks names: the first record that fails one, in the order of the list; and what the fields of
a loaded record are as numbers. -/

namespace Sys2Proof.Machine

/-! ### Runs of numbers -/

theorem countFrom_eq_map (a n : Nat) : countFrom a n = (List.range n).map (fun k => a + k) := by
  induction n generalizing a with
  | zero => rfl
  | succ n ih =>
    rw [countFrom, ih, List.range_succ_eq_map, List.map_cons, List.map_map]
    congr 1
    apply List.map_congr_left
    intro k _
    simp only [Function.comp]
    omega

theorem countFrom_zero (n : Nat) : countFrom 0 n = List.range n := by simp [countFrom_eq_map]

theorem mem_countFrom (a n k : Nat) : k ∈ countFrom a n ↔ a ≤ k ∧ k < a + n := by
  rw [countFrom_eq_map, List.mem_map]
  constructor
  · rintro ⟨x, h, rfl⟩
    have := List.mem_range.mp h
    omega
  · intro h
    exact ⟨k - a, List.mem_range.mpr (by omega), by omega⟩

/-! ### The first failure -/

/-- A record's check names the record exactly when one of its tests fails. -/
theorem recordFault_of_iff (r : Region) (i : Nat) (tests : List Bool) (fails : Bool)
    (h : tests.all id = true ↔ ¬ fails = true) :
    recordFault r i tests = if fails = true then some (r.code, i) else none := by
  by_cases k : fails = true
  · have : ¬ tests.all id = true := fun e => (h.mp e) k
    simp [recordFault, k, this]
  · simp [recordFault, k, h.mpr k]

/-- A list of checks that each name their record when it fails names the first that fails. -/
theorem firstFault_eq_find {α : Type} (r : Region) (xs : List α) (name : α → Nat) (f : α → Fault?) (fails : α → Bool)
    (h : ∀ x, f x = if fails x = true then some (r.code, name x) else none) :
    firstFault f xs = (xs.find? fails).map (fun x => (r.code, name x)) := by
  induction xs with
  | nil => rfl
  | cons x xs ih =>
    simp only [firstFault, List.findSome?_cons, List.find?_cons, h x] at *
    cases hx : fails x <;> simp [ih]

/-! ### Fields of loaded words -/

theorem bitsAt_low_byte (w : Word) : bitsAt w 0 8 = w.toNat % 256 := by simp [bitsAt, BitVec.extractLsb'_toNat]

theorem bitsAt_high_byte (w : Word) : bitsAt w 8 8 = w.toNat / 256 % 256 := by
  simp [bitsAt, BitVec.extractLsb'_toNat, Nat.shiftRight_eq_div_pow]

/-- A claim word as numbers (R190). -/
theorem claimOf_eq (w : Word) : claimOf w =
    ⟨w.toNat % 65536, if w.toNat / 2147483648 = 1 then .place else .pick, w.toNat / 65536 % 512⟩ := by
  have top : w.getLsbD 31 = decide (w.toNat / 2147483648 = 1) := by
    have := w.isLt
    have : w.toNat / 2 ^ 31 % 2 = w.toNat / 2147483648 := by omega
    rw [BitVec.getLsbD, Nat.testBit_eq_decide_div_mod_eq, this]
  have number : bitsAt w 0 16 = w.toNat % 65536 := by simp [bitsAt, BitVec.extractLsb'_toNat]
  have piece : bitsAt w 16 9 = w.toNat / 65536 % 512 := by
    simp [bitsAt, BitVec.extractLsb'_toNat, Nat.shiftRight_eq_div_pow]
  simp only [claimOf, number, piece, top, decide_eq_true_eq]

theorem distinct_eq_nodup (l : List Nat) : distinct l = decide l.Nodup := by
  induction l with
  | nil => rfl
  | cons x xs ih =>
    simp only [distinct, ih, List.nodup_cons, Bool.decide_and, List.contains_eq_mem]
    cases h : decide (x ∈ xs) <;> simp_all

/-- Lengths that do not grow, place by place. -/
theorem neverLonger_eq (f : Nat → Nat) (l : List Nat) :
    neverLonger (l.map f) = !((List.range (l.length - 1)).any fun k => decide (f (l.getD k 0) < f (l.getD (k + 1) 0))) := by
  match l with
  | [] => rfl
  | [a] => rfl
  | a :: b :: rest =>
    have ih := neverLonger_eq f (b :: rest)
    simp only [List.map_cons] at ih
    simp only [List.map_cons, neverLonger, ih, List.length_cons, Nat.add_sub_cancel, List.range_succ_eq_map, List.any_cons,
      List.any_map, Function.comp_def, List.getD_cons_zero, List.getD_cons_succ, Bool.not_or, Nat.succ_eq_add_one]
    congr 1
    by_cases h : f b ≤ f a <;> simp [h] <;> omega

end Sys2Proof.Machine
end

