-- ==== Sys2Proof/WellFormed.lean ====
section
/-! DEFINITION. Which commands the outside world can send: transfers of the lengths and addresses
R24 gives, and record numbers in the ranges of 00_scope.md "Numbering". What depends on the directory (the piece capacity, the roster count, the ring size) is not
checked here but when the command runs. -/

namespace Sys2Proof

/-- R24: "1 to 8 consecutive 32-bit words, starting at a word address from 0 to 4,194,303". -/
def HostTransfer.wf (t : HostTransfer) : Bool :=
  decide (t.addr < Config.memoryWords) &&
  match t.op with
  | .read n => decide (1 ≤ n ∧ n ≤ Config.hostWordsMax)
  | .write ws => decide (1 ≤ ws.length ∧ ws.length ≤ Config.hostWordsMax)

/-- A roster has at most 64 entries (section 3.1). -/
def rosterNumberWf (n : Nat) : Bool := decide (n < 64)

/-- Pieces are numbered from 1 to at most 256 (00_scope.md "Numbering"). -/
def pieceNumberWf (n : Nat) : Bool := decide (1 ≤ n ∧ n ≤ 256)

/-- A move ring has at most 64 entries (section 8.1). -/
def ringNumberWf (n : Nat) : Bool := decide (n < 64)

def AlarmRef.wf : AlarmRef → Bool
  | .probe n => rosterNumberWf n
  | .bed _ => true
  | .crane _ => true
  | .loop _ => true

/-- The check of a command. The constructors whose operands are bounded by their types need none. -/
def Instr.wf : Instr → Bool
  | .hostTransferArrives t => t.wf
  | .hostWrite a ws => HostTransfer.wf ⟨a, .write ws⟩
  | .enableOn n => rosterNumberWf n
  | .enableOff n => rosterNumberWf n
  | .scrap n => pieceNumberWf n
  | .free n => pieceNumberWf n
  | .intake n => ringNumberWf n
  | .ack r => r.wf
  | _ => true

end Sys2Proof
end

