-- ==== Sys2Proof/Laws/PerInstr.lean ====
section
/-! SUPPORT. One statement about every command as syntax: what the check of a command guarantees of its
operands, and that no word of the table spells it (the table gives its rows no bits). -/

namespace Sys2Proof.Laws

/-- The operands a checked command has: transfers of 1 to 8 words from a word address (R24), characters of
the wire's length (R191, section 8.4), records within the ranges of 00_scope.md "Numbering". -/
def Bounds.InRange : Instr → Prop
  | .hostTransferArrives t => t.addr < 4194304 ∧
      match t.op with
      | .read n => 1 ≤ n ∧ n ≤ 8
      | .write ws => 1 ≤ ws.length ∧ ws.length ≤ 8
  | .hostWrite addr ws => addr < 4194304 ∧ 1 ≤ ws.length ∧ ws.length ≤ 8
  | .enableOn n => n < 64
  | .enableOff n => n < 64
  | .scrap n => 1 ≤ n ∧ n ≤ 256
  | .free n => 1 ≤ n ∧ n ≤ 256
  | .intake n => n < 64
  | .ack (.probe n) => n < 64
  | _ => True

/-- A checked command has its operands in range, and no word spells it. -/
def Bounds.Statement (i : Instr) : Prop :=
  (i.wf = true → Bounds.InRange i) ∧ ∀ nbits w, decodeTableWord nbits w ≠ some i

theorem Bounds.powerOnReset (straps : Fin 8) : Bounds.Statement (.powerOnReset straps) :=
  ⟨fun _ => trivial, fun _ _ h => nomatch h⟩

theorem Bounds.directoryReadDone : Bounds.Statement (.directoryReadDone) :=
  ⟨fun _ => trivial, fun _ _ h => nomatch h⟩

theorem Bounds.loadReadsDone : Bounds.Statement (.loadReadsDone) :=
  ⟨fun _ => trivial, fun _ _ h => nomatch h⟩

theorem Bounds.loadingEnd : Bounds.Statement (.loadingEnd) :=
  ⟨fun _ => trivial, fun _ _ h => nomatch h⟩

theorem Bounds.safe : Bounds.Statement (.safe) :=
  ⟨fun _ => trivial, fun _ _ h => nomatch h⟩

theorem Bounds.restart : Bounds.Statement (.restart) :=
  ⟨fun _ => trivial, fun _ _ h => nomatch h⟩

theorem Bounds.pathQuiet : Bounds.Statement (.pathQuiet) :=
  ⟨fun _ => trivial, fun _ _ h => nomatch h⟩

theorem Bounds.worksTimeWriteBack : Bounds.Statement (.worksTimeWriteBack) :=
  ⟨fun _ => trivial, fun _ _ h => nomatch h⟩

theorem Bounds.hostTransferArrives (t : HostTransfer) : Bounds.Statement (.hostTransferArrives t) := by
  refine ⟨fun h => ?_, by simp [decodeTableWord]⟩
  obtain ⟨addr, op⟩ := t
  cases op <;>
    · simp only [Instr.wf, HostTransfer.wf, Bool.and_eq_true] at h
      exact ⟨of_decide_eq_true h.1, of_decide_eq_true h.2⟩

theorem Bounds.takeTransfer : Bounds.Statement (.takeTransfer) :=
  ⟨fun _ => trivial, fun _ _ h => nomatch h⟩

theorem Bounds.hostWrite (addr : Nat) (words : List WriteWord) : Bounds.Statement (.hostWrite addr words) := by
  refine ⟨fun h => ?_, by simp [decodeTableWord]⟩
  simp only [Instr.wf, HostTransfer.wf, Bool.and_eq_true] at h
  exact ⟨of_decide_eq_true h.1, of_decide_eq_true h.2⟩

theorem Bounds.memoryResponse (answer : MemAnswer) : Bounds.Statement (.memoryResponse answer) :=
  ⟨fun _ => trivial, fun _ _ h => nomatch h⟩

theorem Bounds.memoryTimeout (stored : Bool) : Bounds.Statement (.memoryTimeout stored) :=
  ⟨fun _ => trivial, fun _ _ h => nomatch h⟩

theorem Bounds.faultClear : Bounds.Statement (.faultClear) :=
  ⟨fun _ => trivial, fun _ _ h => nomatch h⟩

theorem Bounds.ownReadDone : Bounds.Statement (.ownReadDone) :=
  ⟨fun _ => trivial, fun _ _ h => nomatch h⟩

theorem Bounds.commitGroupAdmit : Bounds.Statement (.commitGroupAdmit) :=
  ⟨fun _ => trivial, fun _ _ h => nomatch h⟩

theorem Bounds.commitGroupComplete : Bounds.Statement (.commitGroupComplete) :=
  ⟨fun _ => trivial, fun _ _ h => nomatch h⟩

theorem Bounds.prepare (b : Fin 24) : Bounds.Statement (.prepare b) :=
  ⟨fun _ => trivial, fun _ _ h => nomatch h⟩

theorem Bounds.cast (b : Fin 24) : Bounds.Statement (.cast b) :=
  ⟨fun _ => trivial, fun _ _ h => nomatch h⟩

theorem Bounds.startCure (b : Fin 24) : Bounds.Statement (.startCure b) :=
  ⟨fun _ => trivial, fun _ _ h => nomatch h⟩

theorem Bounds.stand (b : Fin 24) : Bounds.Statement (.stand b) :=
  ⟨fun _ => trivial, fun _ _ h => nomatch h⟩

theorem Bounds.hold (b : Fin 24) : Bounds.Statement (.hold b) :=
  ⟨fun _ => trivial, fun _ _ h => nomatch h⟩

theorem Bounds.resume (b : Fin 24) : Bounds.Statement (.resume b) :=
  ⟨fun _ => trivial, fun _ _ h => nomatch h⟩

theorem Bounds.endCure (b : Fin 24) : Bounds.Statement (.endCure b) :=
  ⟨fun _ => trivial, fun _ _ h => nomatch h⟩

theorem Bounds.detension (b : Fin 24) : Bounds.Statement (.detension b) :=
  ⟨fun _ => trivial, fun _ _ h => nomatch h⟩

theorem Bounds.clear (b : Fin 24) : Bounds.Statement (.clear b) :=
  ⟨fun _ => trivial, fun _ _ h => nomatch h⟩

theorem Bounds.pollSlot (l : Fin 4) : Bounds.Statement (.pollSlot l) :=
  ⟨fun _ => trivial, fun _ _ h => nomatch h⟩

theorem Bounds.pollSent (l : Fin 4) : Bounds.Statement (.pollSent l) :=
  ⟨fun _ => trivial, fun _ _ h => nomatch h⟩

theorem Bounds.replyWindowExpiry (l : Fin 4) : Bounds.Statement (.replyWindowExpiry l) :=
  ⟨fun _ => trivial, fun _ _ h => nomatch h⟩

theorem Bounds.replyLimitExpiry (l : Fin 4) : Bounds.Statement (.replyLimitExpiry l) :=
  ⟨fun _ => trivial, fun _ _ h => nomatch h⟩

theorem Bounds.probeReply (l : Fin 4) (samples : List Bool) : Bounds.Statement (.probeReply l samples) :=
  ⟨fun _ => trivial, fun _ _ h => nomatch h⟩

theorem Bounds.lowTimerExpiry (l : Fin 4) : Bounds.Statement (.lowTimerExpiry l) :=
  ⟨fun _ => trivial, fun _ _ h => nomatch h⟩

theorem Bounds.highTimerExpiry (l : Fin 4) : Bounds.Statement (.highTimerExpiry l) :=
  ⟨fun _ => trivial, fun _ _ h => nomatch h⟩

theorem Bounds.breakRetryExpiry (l : Fin 4) : Bounds.Statement (.breakRetryExpiry l) :=
  ⟨fun _ => trivial, fun _ _ h => nomatch h⟩

theorem Bounds.startSequenceDone (l : Fin 4) : Bounds.Statement (.startSequenceDone l) :=
  ⟨fun _ => trivial, fun _ _ h => nomatch h⟩

theorem Bounds.enableOn (entry : Nat) : Bounds.Statement (.enableOn entry) := by
  refine ⟨fun h => ?_, by simp [decodeTableWord]⟩
  simpa [Instr.wf, rosterNumberWf, Bounds.InRange] using h

theorem Bounds.enableOff (entry : Nat) : Bounds.Statement (.enableOff entry) := by
  refine ⟨fun h => ?_, by simp [decodeTableWord]⟩
  simpa [Instr.wf, rosterNumberWf, Bounds.InRange] using h

theorem Bounds.controlStep : Bounds.Statement (.controlStep) :=
  ⟨fun _ => trivial, fun _ _ h => nomatch h⟩

theorem Bounds.maturityStep : Bounds.Statement (.maturityStep) :=
  ⟨fun _ => trivial, fun _ _ h => nomatch h⟩

theorem Bounds.take (b : Fin 24) : Bounds.Statement (.take b) :=
  ⟨fun _ => trivial, fun _ _ h => nomatch h⟩

theorem Bounds.gateEntryExpiry : Bounds.Statement (.gateEntryExpiry) :=
  ⟨fun _ => trivial, fun _ _ h => nomatch h⟩

theorem Bounds.swap : Bounds.Statement (.swap) :=
  ⟨fun _ => trivial, fun _ _ h => nomatch h⟩

theorem Bounds.cancel : Bounds.Statement (.cancel) :=
  ⟨fun _ => trivial, fun _ _ h => nomatch h⟩

theorem Bounds.admissionRound (lowFire : Bool) : Bounds.Statement (.admissionRound lowFire) :=
  ⟨fun _ => trivial, fun _ _ h => nomatch h⟩

theorem Bounds.valveStep : Bounds.Statement (.valveStep) :=
  ⟨fun _ => trivial, fun _ _ h => nomatch h⟩

theorem Bounds.scrap (piece : Nat) : Bounds.Statement (.scrap piece) := by
  refine ⟨fun h => ?_, by simp [decodeTableWord]⟩
  simpa [Instr.wf, pieceNumberWf, Bounds.InRange] using h

theorem Bounds.free (piece : Nat) : Bounds.Statement (.free piece) := by
  refine ⟨fun h => ?_, by simp [decodeTableWord]⟩
  simpa [Instr.wf, pieceNumberWf, Bounds.InRange] using h

theorem Bounds.yardMaturityStep : Bounds.Statement (.yardMaturityStep) :=
  ⟨fun _ => trivial, fun _ _ h => nomatch h⟩

theorem Bounds.countEdge (c : Fin 2) (dir : Direction) : Bounds.Statement (.countEdge c dir) :=
  ⟨fun _ => trivial, fun _ _ h => nomatch h⟩

theorem Bounds.illegalTransition (c : Fin 2) : Bounds.Statement (.illegalTransition c) :=
  ⟨fun _ => trivial, fun _ _ h => nomatch h⟩

theorem Bounds.indexMarker (c : Fin 2) (edge : Option Direction) : Bounds.Statement (.indexMarker c edge) :=
  ⟨fun _ => trivial, fun _ _ h => nomatch h⟩

theorem Bounds.feedbackChange (c : Fin 2) (p : Permit) (active : Bool) : Bounds.Statement (.feedbackChange c p active) :=
  ⟨fun _ => trivial, fun _ _ h => nomatch h⟩

theorem Bounds.offTimerExpiry (c : Fin 2) (p : Permit) : Bounds.Statement (.offTimerExpiry c p) :=
  ⟨fun _ => trivial, fun _ _ h => nomatch h⟩

theorem Bounds.cabStop (c : Fin 2) (active : Bool) : Bounds.Statement (.cabStop c active) :=
  ⟨fun _ => trivial, fun _ _ h => nomatch h⟩

theorem Bounds.yardStop (active : Bool) : Bounds.Statement (.yardStop active) :=
  ⟨fun _ => trivial, fun _ _ h => nomatch h⟩

theorem Bounds.blockTimerExpiry (c : Fin 2) (p : Permit) : Bounds.Statement (.blockTimerExpiry c p) :=
  ⟨fun _ => trivial, fun _ _ h => nomatch h⟩

theorem Bounds.arm (c : Fin 2) : Bounds.Statement (.arm c) :=
  ⟨fun _ => trivial, fun _ _ h => nomatch h⟩

theorem Bounds.intake (entry : Nat) : Bounds.Statement (.intake entry) := by
  refine ⟨fun h => ?_, by simp [decodeTableWord]⟩
  simpa [Instr.wf, ringNumberWf, Bounds.InRange] using h

theorem Bounds.moveStart (c : Fin 2) : Bounds.Statement (.moveStart c) :=
  ⟨fun _ => trivial, fun _ _ h => nomatch h⟩

theorem Bounds.waitTimerExpiry (c : Fin 2) : Bounds.Statement (.waitTimerExpiry c) :=
  ⟨fun _ => trivial, fun _ _ h => nomatch h⟩

theorem Bounds.travelTimerExpiry (c : Fin 2) : Bounds.Statement (.travelTimerExpiry c) :=
  ⟨fun _ => trivial, fun _ _ h => nomatch h⟩

theorem Bounds.cabBlock (c : Fin 2) (samples : List Bool) : Bounds.Statement (.cabBlock c samples) :=
  ⟨fun _ => trivial, fun _ _ h => nomatch h⟩

theorem Bounds.status (c : Fin 2) (r : CabReport) : Bounds.Statement (.status c r) :=
  ⟨fun _ => trivial, fun _ _ h => nomatch h⟩

theorem Bounds.arrived (c : Fin 2) (r : CabReport) : Bounds.Statement (.arrived c r) :=
  ⟨fun _ => trivial, fun _ _ h => nomatch h⟩

theorem Bounds.hooked (c : Fin 2) (r : CabReport) : Bounds.Statement (.hooked c r) :=
  ⟨fun _ => trivial, fun _ _ h => nomatch h⟩

theorem Bounds.lifted (c : Fin 2) (r : CabReport) : Bounds.Statement (.lifted c r) :=
  ⟨fun _ => trivial, fun _ _ h => nomatch h⟩

theorem Bounds.landed (c : Fin 2) (r : CabReport) : Bounds.Statement (.landed c r) :=
  ⟨fun _ => trivial, fun _ _ h => nomatch h⟩

theorem Bounds.unhooked (c : Fin 2) (r : CabReport) : Bounds.Statement (.unhooked c r) :=
  ⟨fun _ => trivial, fun _ _ h => nomatch h⟩

theorem Bounds.cannot (c : Fin 2) (r : CabReport) : Bounds.Statement (.cannot c r) :=
  ⟨fun _ => trivial, fun _ _ h => nomatch h⟩

theorem Bounds.quietTimerExpiry (c : Fin 2) : Bounds.Statement (.quietTimerExpiry c) :=
  ⟨fun _ => trivial, fun _ _ h => nomatch h⟩

theorem Bounds.lostTimerExpiry (c : Fin 2) : Bounds.Statement (.lostTimerExpiry c) :=
  ⟨fun _ => trivial, fun _ _ h => nomatch h⟩

theorem Bounds.cabReady (c : Fin 2) (active : Bool) : Bounds.Statement (.cabReady c active) :=
  ⟨fun _ => trivial, fun _ _ h => nomatch h⟩

theorem Bounds.shifterFree (c : Fin 2) : Bounds.Statement (.shifterFree c) :=
  ⟨fun _ => trivial, fun _ _ h => nomatch h⟩

theorem Bounds.moveResume (c : Fin 2) : Bounds.Statement (.moveResume c) :=
  ⟨fun _ => trivial, fun _ _ h => nomatch h⟩

theorem Bounds.abort (entry : Fin 16) : Bounds.Statement (.abort entry) :=
  ⟨fun _ => trivial, fun _ _ h => nomatch h⟩

theorem Bounds.redirect (entry : Fin 16) (destination : Word) : Bounds.Statement (.redirect entry destination) :=
  ⟨fun _ => trivial, fun _ _ h => nomatch h⟩

theorem Bounds.noticeTail (tail : Word) : Bounds.Statement (.noticeTail tail) :=
  ⟨fun _ => trivial, fun _ _ h => nomatch h⟩

theorem Bounds.ack (block : AlarmRef) : Bounds.Statement (.ack block) := by
  refine ⟨fun h => ?_, by simp [decodeTableWord]⟩
  cases block with
  | probe n => simpa [Instr.wf, AlarmRef.wf, rosterNumberWf, Bounds.InRange] using h
  | bed _ => trivial
  | crane _ => trivial
  | loop _ => trivial

end Sys2Proof.Laws
end

