-- ==== Sys2Proof/Laws/Receiver.lean ====
section
/-! SUPPORT. What a serial receiver does with one sample and with many (R60, R62, R158). -/

namespace Sys2Proof.Machine

/-- The receiver keeps the line as it last sampled it. -/
@[simp] theorem sample_high (rx : LineReceiver) (bits : Nat) (high : Bool) : (rx.sample bits high).1.high = high := by
  simp only [LineReceiver.sample]
  repeat' split
  all_goals rfl

@[simp] theorem atLevel_high (rx : LineReceiver) : rx.atLevel.high = rx.high := rfl

@[simp] theorem afterOwn_high (rx : LineReceiver) : rx.afterOwn.high = rx.high := rfl

@[simp] theorem withCheck_length (chars : List (BitVec 8)) : (withCheck chars).length = chars.length + 1 := by
  simp [withCheck]

@[simp] theorem loopFrame_length (v : BitVec 8) (mark : Bool) : (loopFrame v mark).length = Config.loopBits := rfl

@[simp] theorem cabFrame_length (v : BitVec 8) : (cabFrame v).length = Config.cabBits := rfl

/-- A block never keeps more characters than its line's form. -/
theorem join_bounded (f : LineForm) (chars : List RxChar) (ch : Option RxChar) (h : chars.length ≤ f.keep) :
    (f.join chars ch).length ≤ f.keep := by
  unfold LineForm.join
  split
  · split
    · simp; omega
    · exact h
  · exact h

/-- Listening keeps the block within its form, whatever the line does. -/
theorem listen_bounded (f : LineForm) (rx : LineReceiver) (chars : List RxChar) (samples : List Bool)
    (h : chars.length ≤ f.keep) : (f.listen rx chars samples).chars.length ≤ f.keep := by
  induction samples generalizing rx chars with
  | nil => exact h
  | cons high rest ih =>
    unfold LineForm.listen
    dsimp only
    split
    · exact join_bounded f chars _ h
    · exact ih _ _ (join_bounded f chars _ h)

/-- What is left to hear is shorter than what was heard, when a block has ended. -/
theorem listen_rest_lt (f : LineForm) (rx : LineReceiver) (chars : List RxChar) (samples : List Bool)
    (h : (f.listen rx chars samples).ended = true) : (f.listen rx chars samples).rest.length < samples.length := by
  induction samples generalizing rx chars with
  | nil => simp [LineForm.listen] at h
  | cons high rest ih =>
    unfold LineForm.listen at h ⊢
    dsimp only at h ⊢
    split
    · simp
    · rename_i hn
      rw [if_neg hn] at h
      exact Nat.lt_succ_of_lt (ih _ _ h)

end Sys2Proof.Machine
end

