-- ==== Sys2Proof/Tests/Slice0.lean ====
section
/-! SUPPORT. Tests: the check of a command refuses ill-formed ones; for every statement with hypotheses a
state and operands that meet them; for every command one step on a small state. -/

namespace Sys2Proof.Tests

open Sys2Proof Sys2Proof.Machine

set_option Elab.async false
set_option synthInstance.maxSize 1000

/-! ### The check of a command -/

theorem test_wf_accepts :
    (Instr.hostTransferArrives ⟨4194303, .read 8⟩).wf = true ∧ (Instr.hostWrite 0 [⟨1, 15#4⟩]).wf = true ∧
    (Instr.probeReply 0 []).wf = true ∧ (Instr.cabBlock 0 [true]).wf = true ∧
    (Instr.enableOn 63).wf = true ∧ (Instr.scrap 256).wf = true ∧ (Instr.intake 63).wf = true ∧
    (Instr.ack (.probe 63)).wf = true := by decide

theorem test_wf_refuses_address : (Instr.hostTransferArrives ⟨4194304, .read 1⟩).wf = false := by decide
theorem test_wf_refuses_empty_read : (Instr.hostTransferArrives ⟨0, .read 0⟩).wf = false := by decide
theorem test_wf_refuses_long_read : (Instr.hostTransferArrives ⟨0, .read 9⟩).wf = false := by decide
theorem test_wf_refuses_empty_write : (Instr.hostWrite 0 []).wf = false := by decide
theorem test_wf_refuses_long_write : (Instr.hostWrite 0 (List.replicate 9 ⟨0, 15#4⟩)).wf = false := by decide
theorem test_wf_refuses_write_address : (Instr.hostWrite 4194304 [⟨0, 15#4⟩]).wf = false := by decide
theorem test_wf_refuses_roster_number :
    (Instr.enableOn 64).wf = false ∧ (Instr.enableOff 64).wf = false ∧ (Instr.ack (.probe 64)).wf = false := by decide
theorem test_wf_refuses_piece_number :
    (Instr.scrap 0).wf = false ∧ (Instr.scrap 257).wf = false ∧ (Instr.free 0).wf = false ∧ (Instr.free 257).wf = false := by decide
theorem test_wf_refuses_ring_number : (Instr.intake 64).wf = false := by decide

theorem test_no_word_spells_a_command : decodeTableWord 8 0 = none := rfl

/-! ### Small states -/

/-- Whether a command answers next with a state of which `p` holds. -/
def gives (c : Instr) (s : State) (p : State → Bool) : Bool := match exec c s with | .next t => p t | _ => false

def windows : List Window :=
  [⟨.directory, 0, 64, 64⟩, ⟨.bed, 200, 1920, 80⟩, ⟨.mix, 2200, 128, 8⟩, ⟨.piece, 2400, 384, 12⟩, ⟨.slot, 2800, 80, 20⟩,
   ⟨.roster, 2900, 64, 16⟩, ⟨.crane, 100, 40, 20⟩, ⟨.gateA, 3000, 65, 65⟩, ⟨.gateB, 3100, 65, 65⟩,
   ⟨.moveRing, 3200, 64, 8⟩, ⟨.moveTable, 3300, 256, 16⟩, ⟨.noticeRing, 3600, 64, 4⟩]

def freePiece : Piece := ⟨.free, 0, 0, 0, 0, 0, 0, 0, 0, 0, false, none⟩

def probe (loop address : Nat) (a : Assignment) (st : ProbeState) : ProbeEntry :=
  ⟨loop, address, a, st, 0, 0, 0, 0, 0, .none, AlarmBlock.reset⟩

/-- A RUNNING part with an idle path: 24 EMPTY beds, 32 FREE pieces, 4 slots, 4 OFFLINE probes, 2 UNARMED cranes. -/
def ready : State :=
  { State.reset with
    path := { State.reset.path with port := .free, current := none, known := true, windows := windows },
    dir := { State.reset.dir with
      lifecycle := .running, dirRead := true, counting := true, takeTime := false, loadCode := .clean, attn := false,
      worksTime := 1000, zones := 32, bayZone := 30, budget := 100, pieceCap := 32, slotCount := 4, rosterCount := 4 },
    load := ⟨.idle, [], []⟩, freeCount := 32, rosterLoaded := true, cranesLoaded := true,
    notices := { NoticeUnit.reset with size := 16, alarmsBuilt := true },
    mixes := Vector.replicate 16 ⟨-50, 1000, 1200, 3000, 700, 0⟩,
    roster := [probe 1 1 (.bed 0) .offline, probe 1 2 (.bed 0) .offline, probe 1 3 (.bed 0) .offline, probe 0 4 .yard .offline],
    loops := Vector.replicate 4 { Loop.reset with line := .running },
    stock := { pieces := List.replicate 32 freePiece, slots := List.replicate 4 ⟨20, 3, true, [], []⟩, dispatched := [] },
    moves := { MoveUnit.reset with ringSize := 8 } }

theorem test_ready_is_calm : ready.Calm := by decide +kernel
theorem test_ready_has_the_invariants :
    ready.MemoryCanonical ∧ ready.PermitsKept ∧ ready.ValvesKept ∧ ready.SpansApart := by decide +kernel

/-! ### The queue, the clock, and how a command ends -/

def queued : State := { ready with pending := [.valveStep, .controlStep] }

theorem test_front_command : queued.pending = .valveStep :: [.controlStep] ∧
    (match step queued with | .next t => decide (t.pending = [.controlStep] ∧ t.steam.valveStep = 1) | _ => false) = true := by
  decide +kernel

theorem test_tick : ready.pending = [] ∧
    (match step { ready with clockMs := 999 } with | .next t => decide (t.clockMs = 0 ∧ t.dir.worksTime = 1001) | _ => false) = true := by
  decide +kernel

theorem test_works_time_write_back : ready.dir.dirRead = true ∧ (ready.window? .directory).isSome = true ∧
    gives .worksTimeWriteBack { ready with dir := { ready.dir with writeBack := 60 } }
      (fun t => decide (t.dir.writeBack = 0 ∧ t.dir.worksTime = 1000)) = true := by decide +kernel

theorem test_hyps_settling : ready.path.outbox = [] ∧ ready.RunwayCalm := by decide +kernel

/-! ### Invariants -/

def crane0 : Crane :=
  { Crane.reset with
    mon := { Monitor.reset with
      zoneWidth := 1600, origin := -800, indexRef := 0, deadTime := 20, count := 3200, homed := true, detecting := true,
      posZone := some 2, span := some ⟨2, 4⟩, armed := true, permits := ⟨false, true, false, false⟩,
      phase := .move .toPick, targets := [4] },
    cab := { CabSide.reset with armed := true, homed := true, posZone := some 2, span := some ⟨2, 4⟩, link := .up, queue := [7] } }

def crane1 : Crane :=
  { Crane.reset with
    mon := { Monitor.reset with
      zoneWidth := 1600, origin := -800, indexRef := 36000, deadTime := 20, count := 33100, homed := true, detecting := true,
      posZone := some 21, span := some ⟨21, 21⟩, armed := true },
    cab := { CabSide.reset with armed := true, homed := true, posZone := some 21, span := some ⟨21, 21⟩, link := .up } }

/-- A bed that is steamed, a crane that travels to its pick, and a written byte. -/
def busy : State :=
  { (ready.setBed 0 { ready.bed 0 with
      steam := { rating := 40, priority := 1, demand := 100, running := true, granted := 100, closed := false, starved := 0,
                 armed := true, valve := true } }) with
    mem := setWord [] 3 7, cranes := #v[crane0, crane1] }

theorem test_hyps_invariants :
    busy.MemoryCanonical ∧ busy.PermitsKept ∧ busy.ValvesKept ∧ busy.SpansApart ∧
    (match step busy with | .next t => decide (t.MemoryCanonical ∧ t.PermitsKept ∧ t.ValvesKept ∧ t.SpansApart) | _ => false) = true ∧
    (busy.steamBed 0).valve = true ∧ permitOf (busy.mon 0).permits .travelEast = true := by decide +kernel

/-! ### Frames -/

/-- `ready` with a transfer on the memory port. -/
def onPort (p : Port) (item : OwnItem) : State :=
  { ready with path := { ready.path with port := p, current := some ⟨item, [], []⟩ } }

/-- A host transfer issued at memory. -/
def hostOnPort (op : HostOp) : State :=
  { ready with host := { ready.host with up := some ⟨⟨4000, op⟩, .issued, false, [], [], false, false⟩ },
               path := { ready.path with port := .host } }

def ownWrite : State := onPort (.own (.write .bed 18 [some 5])) (.refresh ⟨.bed, 0, [(18, 5)]⟩)
def ownRead : State := onPort (.own (.read .bed 0 16)) (.read ⟨.bedIntake 0, .bed, 0, 16⟩)

theorem test_hyps_memory_events : tellsAnEvent .valveStep = true ∧ tellsAnEvent (.hostTransferArrives ⟨0, .read 1⟩) = true ∧
    tellsAnEvent .takeTransfer = true ∧ tellsAnEvent (.hostWrite 0 []) = false ∧
    gives .valveStep busy (fun t => decide (t.mem = busy.mem)) = true := by decide +kernel

theorem test_hyps_memory_host_write : (ready.host.up = none → ready.host.backlog = []) ∧
    gives (.hostWrite 4000 [⟨7, 15#4⟩, ⟨9, 1#4⟩]) ready (fun t => decide (wordsAt t.mem 3999 4 = [0, 7, 9, 0])) = true := by
  decide +kernel

theorem test_hyps_memory_requests :
    requestWords (.prepare 23) = some (.bed, 23, 17, 1) ∧ ready.wordPlace .bed 23 17 = some 2057 ∧
    requestWords (.redirect 15 3) = some (.moveTable, 15, 13, 2) ∧ ready.wordPlace .moveTable 15 13 = some 3553 ∧
    requestWords (.ack (.loop 3)) = some (.directory, 0, 56, 1) ∧
    gives (.prepare 23) ready (fun t => decide (wordAt t.mem 2057 = 1)) = true := by decide +kernel

theorem test_hyps_memory_port :
    ownWrite.path.port = .own (.write .bed 18 [some 5]) ∧ ownRead.path.port = .own (.read .bed 0 16) ∧
    (hostOnPort (.read 8)).path.port = .host ∧ (hostOnPort (.write [⟨3, 15#4⟩])).path.port = .host ∧
    gives (.memoryResponse .done) ownWrite (fun t => decide (wordsAt t.mem 217 3 = [0, 5, 0])) = true ∧
    gives (.memoryResponse .done) (hostOnPort (.write [⟨3, 15#4⟩])) (fun t => decide (wordAt t.mem 4000 = 3)) = true := by
  decide +kernel

theorem test_hyps_enable_rows : ready.WordLies .roster 0 3 2903 ∧ ready.WordLies .roster 3 3 2951 := by decide +kernel

theorem test_hyps_take_swap_cancel : ready.WordLies .bed 23 52 2092 ∧ ready.WordLies .directory 0 23 23 ∧
    requestWords (.take 23) = some (.bed, 23, 52, 1) ∧ requestWords .swap = some (.directory, 0, 23, 1) ∧
    requestWords .cancel = some (.directory, 0, 23, 1) := by decide +kernel

/-! ### Lifecycle -/

theorem test_power_on_reset : gives (.powerOnReset 7) busy (fun t => decide (t.dir.base = 3670016 ∧ t.dir.lifecycle = .loading ∧
    (t.steamBed 0).valve = false ∧ permitOf (t.mon 0).permits .travelEast = false ∧ t.mem = busy.mem)) = true := by
  decide +kernel

/-- A directory without fault, over the windows of `ready`. -/
def goodDirectory : List Word :=
  [0x4A580018, 3, 32, 30, 100, 100, 200, 2200, 2400, 32, 2800, 4, 2900, 4, 3000, 3100, 3200, 8, 3300, 3600, 16, 0, 5000] ++
  List.replicate 41 0

/-- The windows in the order of the directory's regions (R184). -/
def loadedWindows : List Window :=
  [⟨.directory, 0, 64, 64⟩, ⟨.crane, 100, 40, 20⟩, ⟨.bed, 200, 1920, 80⟩, ⟨.mix, 2200, 128, 8⟩, ⟨.piece, 2400, 384, 12⟩,
   ⟨.slot, 2800, 80, 20⟩, ⟨.roster, 2900, 64, 16⟩, ⟨.gateA, 3000, 65, 65⟩, ⟨.gateB, 3100, 65, 65⟩, ⟨.moveRing, 3200, 64, 8⟩,
   ⟨.moveTable, 3300, 256, 16⟩, ⟨.noticeRing, 3600, 64, 4⟩]

def readingDirectory (data : Option (List Word)) : State :=
  { State.reset with path := { State.reset.path with port := .free, current := none, returned := [⟨directoryRead, data, 0⟩] } }

theorem test_directory_read_good :
    (readingDirectory none).dir.lifecycle = .loading ∧ directoryRead.purpose = .directory ∧
    directoryFault State.reset.dir.base goodDirectory = none ∧
    gives .directoryReadDone (readingDirectory (some goodDirectory))
      (fun t => decide (t.load.phase = .regions ∧ t.dir.worksTime = 5000 ∧ t.dir.pieceCap = 32 ∧ t.path.windows = loadedWindows ∧
        t.load.awaited = [.mix, .bed, .roster, .piece, .slot, .crane, .moveTable, .moveRing, .gateA] ∧
        .read ⟨.load .bed, .bed, 0, 1920⟩ ∈ t.path.queue)) = true := by
  decide +kernel

theorem test_directory_read_bad :
    directoryFault State.reset.dir.base (goodDirectory.set 4 4001) = some (.range, 4) ∧
    gives .directoryReadDone (readingDirectory (some (goodDirectory.set 4 4001)))
      (fun t => decide (t.dir.lifecycle = .safe ∧ t.dir.loadCode = .range ∧ t.dir.loadIndex = 4)) = true ∧
    gives .directoryReadDone (readingDirectory none)
      (fun t => decide (t.dir.lifecycle = .safe ∧ t.dir.loadCode = .memory)) = true := by decide +kernel

/-- Each check of the directory, at the edge of its range; a piece table that ends with the last word of memory passes. -/
theorem test_directory_checks :
    directoryFault 0 (goodDirectory.set 0 0x4A580019) = some (.noDirectory, 0) ∧
    directoryFault 0 ((goodDirectory.set 1 4).set 2 7) = some (.badRevision, 1) ∧
    directoryFault 0 (goodDirectory.set 2 7) = some (.range, 2) ∧ directoryFault 0 (goodDirectory.set 2 65) = some (.range, 2) ∧
    directoryFault 0 (goodDirectory.set 3 32) = some (.range, 3) ∧ directoryFault 0 (goodDirectory.set 9 31) = some (.range, 9) ∧
    directoryFault 0 (goodDirectory.set 13 65) = some (.range, 13) ∧ directoryFault 0 (goodDirectory.set 20 24) = some (.range, 20) ∧
    directoryFault 0 (goodDirectory.set 8 4193921) = some (.range, 8) ∧ directoryFault 0 (goodDirectory.set 8 4193920) = none ∧
    directoryFault 0 ((goodDirectory.set 8 4193921).set 9 257) = some (.range, 8) ∧
    directoryFault 0 ((goodDirectory.set 10 4194305).set 11 0) = some (.range, 10) ∧
    directoryFault 0 ((goodDirectory.set 10 4194304).set 11 0) = some (.range, 11) ∧
    directoryFault 0 (goodDirectory.set 7 2119) = some (.overlap, 7) ∧ directoryFault 0 (goodDirectory.set 7 2120) = none ∧
    directoryFault 0 (goodDirectory.set 5 63) = some (.overlap, 5) := by decide +kernel

/-- What the load reads return of an empty works: beds with their plan, mixes, slots, probes and two cranes. -/
def loadData : List (Region × List Word) :=
  let bed : List Word :=
    [3, 3, 2060, 2060, 2060, 2060, 2060, 2060, 2060, 2060, 2060, 2060, 2060, 2060, 300, 1, 2, 0, 0, 0, 0, 0, 0, 0,
     0, 0, 0, 0, 0, 0, 0, 0, 0, 0, 0, 0, 0, 0, 0, 0, 0, 0, 0, 0, 0, 0, 0, 0, 0, 0, 0, 0, 0, 0, 0, 0, 0, 0, 0, 0, 0,
     0, 0, 0, 0, 0, 0, 0, 0, 0, 0, 0, 0, 0, 0, 0, 0, 0, 0, 0]
  [(.directory, goodDirectory.set 9 1), (.mix, (List.replicate 16 [BitVec.ofInt 32 (-50), 1000, 1200, 3000, 700, 0, 0, 0]).flatten),
   (.bed, (List.replicate 24 bed).flatten), (.roster, ((List.range 4).map (fun i => [1, BitVec.ofNat 32 (i + 1), 1] ++ List.replicate 13 0)).flatten),
   (.piece, List.replicate 384 0), (.slot, (List.replicate 4 ([20, 3] ++ List.replicate 18 0)).flatten),
   (.crane, [1600, BitVec.ofInt 32 (-800), 0, 20] ++ List.replicate 16 0 ++ [1600, BitVec.ofInt 32 (-800), 36000, 20] ++ List.replicate 16 0),
   (.moveTable, List.replicate 256 0), (.moveRing, List.replicate 64 0), (.gateA, List.replicate 65 0)]

def loading (data : List (Region × List Word)) : State :=
  { ready with dir := { ready.dir with lifecycle := .loading, pieceCap := 1, slotCount := 1, rosterCount := 0 }, load := ⟨.regions, [], data⟩ }

theorem test_load_reads_good :
    ∀ k (h : k < blocksInOrder.length),
      blocksInOrder[k].check ((blocksInOrder.take k).foldl (fun s x => x.build s) (loading loadData)) = none := by decide +kernel

theorem test_load_reads_done :
    gives .loadReadsDone (loading loadData) (fun t => decide (t.load.phase = .building ∧ t.rosterLoaded = true ∧ t.cranesLoaded = true ∧
      t.notices.alarmsBuilt = true ∧ t.notices.size = 16 ∧ t.freeCount = 1)) = true := by decide +kernel

/-- What the builds need for their refreshes (R183, R26), and values they set. -/
theorem test_hyps_builds : (loading loadData).dir.dirRead = true ∧ ∀ r, ((loading loadData).window? r).isSome = true := by
  refine ⟨by decide +kernel, fun r => ?_⟩
  cases r <;> decide +kernel

theorem test_resumed_cure :
    (resumedContext (List.replicate 19 0 ++ [1, 2, 450, 60])).sub = .held ∧
    (resumedContext (List.replicate 19 0 ++ [0, 258, 450, 60])).sub = .blind ∧
    (resumedContext (List.replicate 19 0 ++ [0, 258, 450, 60])).phase = .holding := by decide +kernel

theorem test_load_reads_bad :
    (∀ h : 0 < blocksInOrder.length, blocksInOrder[0].check (loading [(.directory, goodDirectory)]) = some (Region.mix.code, 0)) ∧
    gives .loadReadsDone (loading [(.directory, goodDirectory)])
      (fun t => decide (t.dir.lifecycle = .safe ∧ t.dir.loadCode = .badRecord ∧ t.dir.loadIndex = 0)) = true := by
  decide +kernel

/-- `loadData` with one region's words changed, its records of the lengths R190 gives. -/
def loadedWith (r : Region) (change : List Word → List Word) : State :=
  loading (loadData.map (fun (x, ws) => if x = r then (x, change ws) else (x, ws)))

/-- One record of each table that fails a check, at the edge of its range, and the record each block names. -/
theorem test_block_checks :
    (loadedWith .mix (·.set 124 801)).bedUnitFault = some (Region.mix.code, 15) ∧ (loadedWith .mix (·.set 124 800)).bedUnitFault = none ∧
    (loadedWith .bed (·.set 1858 7)).bedUnitFault = some (Region.bed.code, 23) ∧
    firstFault (loadedWith .crane (·.set 23 101)).craneRecordFault (List.finRange 2) = some (Region.crane.code, 1) ∧
    (loadedWith .piece (·.set 0 5)).stockFault = some (Region.piece.code, 0) ∧
    (loadedWith .slot (·.set 1 7)).stockFault = some (Region.slot.code, 0) ∧
    (loadedWith .moveTable (·.set 250 13)).moveFault = some (Region.moveTable.code, 15) ∧
    (loadedWith .gateA (·.set 0 33)).gateFault = some (7, 0) ∧
    (loadedWith .bed (·.set 1910 4)).noticeFault = some (Region.bed.code, 23) ∧
    (loadedWith .directory (·.set 26 16)).noticeFault = some (0, 26) := by decide +kernel

theorem test_block_checks_as_stated :
    mixFails (loadedWith .mix (·.set 124 801)) 15 = true ∧ bedFails (loadedWith .bed (·.set 1858 7)) 23 = true ∧
    craneFails (loadedWith .crane (·.set 23 101)) 1 = true ∧ pieceFails (loadedWith .piece (·.set 0 5)) 0 = true ∧
    slotFails (loadedWith .slot (·.set 1 7)) 0 = true ∧ entryFails (loadedWith .moveTable (·.set 250 13)) 15 = true ∧
    ((List.range 16).any (fun i => mixFails (loading loadData) i || entryFails (loading loadData) i) ||
      (List.range 24).any (bedFails (loading loadData)) || pieceFails (loading loadData) 0 || slotFails (loading loadData) 0 ||
      claimsFail (loading loadData) 0 || craneFails (loading loadData) 1 || hookFails (loading loadData)) = false := by decide +kernel

/-- Move 7 stands LANDED with piece 1 on its hook, placing it on the claimed slot 1; no entry then, and another piece. -/
def loadedMove (state piece : Word) : State :=
  loading (loadData.map (fun (r, ws) =>
    if r = .piece then (r, [2, 257, 4097, 0, 0, 3, 0, 7, 0, 0, 0, 0])
    else if r = .slot then (r, [20, 3, 0, 0, 0, 0, 0, 0, 0, 0, 1, 0x80010007] ++ List.replicate 8 0)
    else if r = .moveTable then (r, [7, 1, 0, piece, 1, 120, 180, 0, 0, 0, state] ++ List.replicate 245 0)
    else (r, ws)))

theorem test_claims_and_hook_checks :
    (loadedMove 8 1).stockFault = none ∧ (loadedMove 8 1).moveFault = none ∧
    claimsFail (loadedMove 11 1) 0 = true ∧ (loadedMove 11 1).stockFault = some (Region.slot.code, 0) ∧
    claimsFail (loadedMove 8 2) 0 = true ∧ (loadedMove 8 2).stockFault = some (Region.slot.code, 0) ∧
    entryFails (loadedMove 4 1) 0 = true ∧ (loadedMove 4 1).moveFault = some (Region.moveTable.code, 0) ∧
    hookFails (loadedMove 0 1) = true ∧ (loadedMove 0 1).moveFault = some (9, 0) := by decide +kernel

def built : State :=
  { ready with dir := { ready.dir with lifecycle := .loading }, load := ⟨.building, [], []⟩, loops := Vector.replicate 4 Loop.reset }

theorem test_loading_end : built.loadComplete = true ∧ built.rosterLoaded = true ∧ (built.loop 3).line = .idleWaiting ∧
    gives .loadingEnd built (fun t => decide (t.dir.lifecycle = .running ∧ (t.loop 3).tx = .startSequence)) = true := by
  decide +kernel

theorem test_safe : ready.WordLies .directory 0 21 21 ∧
    gives .safe busy (fun t => decide (t.dir.lifecycle = .safe ∧ (t.steamBed 0).valve = false ∧ (t.mon 0).armed = false)) = true := by
  decide +kernel

/-- `busy` with a piece request, a swap that is pending and a redirect in progress. -/
def requested : State :=
  { (busy.setPiece 32 { freePiece with request := some ⟨.free, .waitingSlot, .accepted⟩ }).putMove 15
      { Move.reset with number := 7, crane := 0, state := .toPick, ctrl := some ⟨.redirect, .waitingSlot, .none, 2⟩ } with
    steam := { busy.steam with swapPending := true } }

theorem test_safe_drops_the_requests : requested.Calm ∧ ActiveIs requested 0 15 ∧
    gives .safe requested (fun t => decide (t.steam.swapPending = false ∧ (t.piece? 32).map (·.request) = some none ∧
      (t.move 15).ctrl = none ∧ (t.move 15).state = .suspended ∧ (t.move 15).remembered = some .toPick)) = true := by decide +kernel

/-- `ready` with a take read, or another read, on its way. -/
def readsOut (p : ReadFor) : State :=
  { ready with path := { ready.path with
      current := some ⟨.read ⟨p, .bed, 0, 80⟩, [.read .bed 16 16], [0]⟩, port := .own (.read .bed 0 16),
      queue := [.read ⟨.take 1, .bed, 80, 80⟩, .refresh ⟨.bed, 0, [(23, 5)]⟩, .refresh ⟨.directory, 0, [(22, 5)]⟩],
      returned := [⟨⟨.swap, .gateB, 0, 65⟩, none, 0⟩, ⟨⟨.bedIntake 2, .bed, 160, 80⟩, none, 0⟩] } }

theorem test_safe_drops_the_reads : (readsOut (.take 0)).dir.lifecycle = .running ∧
    (enterSafe .memory (readsOut (.take 0))).path.current = none ∧
    (enterSafe .memory (readsOut (.bedIntake 0))).path.current = (readsOut (.bedIntake 0)).path.current ∧
    (enterSafe .memory (readsOut (.take 0))).path.returned.map (·.read.purpose) = [.bedIntake 2] ∧
    (enterSafe .memory (readsOut (.take 0))).path.queue.length = 1 := by decide +kernel

theorem test_restart : gives .restart ready (fun t => decide (t.dir.restartPending = true ∧ wordAt t.mem 21 = 1)) = true := by
  decide +kernel

def restarting : State := { ready with dir := { ready.dir with restartPending := true } }

theorem test_path_quiet : restarting.quiet = true ∧
    gives .pathQuiet restarting (fun t => decide (t.dir.lifecycle = .loading ∧ t.dir.worksTime = 1000)) = true := by decide +kernel

/-! ### The memory path -/

theorem test_transfer_arrives : ready.host.up = none ∧ ready.host.backlog = [] ∧
    gives (.hostTransferArrives ⟨4194297, .read 8⟩) ready (fun t => decide (t.host.replies = [⟨.dataError, []⟩])) = true ∧
    gives (.hostTransferArrives ⟨4194304, .write [⟨0, 15#4⟩]⟩) ready
      (fun t => decide (t.host.replies = [⟨.refused, []⟩] ∧ t.path.refusal = ⟨4194304, .range, 1000⟩)) = true ∧
    gives (.hostTransferArrives ⟨4194296, .read 8⟩) ready (fun t => t.host.up.isSome) = true ∧
    gives (.hostTransferArrives ⟨5, .write [⟨0, 0#4⟩]⟩) ready (fun t => decide (t.host.replies = [⟨.done, []⟩])) = true := by
  decide +kernel

/-- A transfer WAITING in the port. -/
def waiting (t : HostTransfer) : State := { ready with host := ⟨some ⟨t, .waiting, false, [], [], false, false⟩, [], []⟩ }

/-- A commit group of bed 24's record in flight. -/
def bedGroup (c : Completion) : Group := ⟨c, [⟨.bed, 23 * 80 + 18, [some 1]⟩]⟩

def heldBed : State :=
  { waiting ⟨2040, .read 1⟩ with path := { ready.path with answered := [bedGroup .nothing] } }

theorem test_transfer_waits_behind : (heldBed.host.up).isSome = true ∧ heldBed.transferHeld ⟨2040, .read 1⟩ = true ∧
    gives .takeTransfer heldBed (fun t => decide (t = finish heldBed)) = true := by decide +kernel

theorem test_read_is_taken : (waiting ⟨200, .read 8⟩).transferHeld ⟨200, .read 8⟩ = false ∧
    (waiting ⟨200, .read 8⟩).readWaits ⟨200, .read 8⟩ = false ∧
    gives .takeTransfer (waiting ⟨200, .read 8⟩) (fun t => decide (t.path.port = .host)) = true := by decide +kernel

/-- A READ of bed 24's alarm state word, of which a refresh waits (R36). -/
theorem test_read_waits_for_the_alarm_word :
    let s : State := (waiting ⟨2110, .read 1⟩).withPath { ready.path with queue := [.refresh ⟨.bed, 23, [(70, 1)]⟩] }
    locate s.path.windows 2110 = some ⟨.bed, 23, 70⟩ ∧ s.transferHeld ⟨2110, .read 1⟩ = false ∧
    s.readWaits ⟨2110, .read 1⟩ = true ∧ gives .takeTransfer s (fun t => decide (t = finish s)) = true := by decide +kernel

/-- The last burst of an own read at memory, while a READ waits in the upstream port and a refresh in the queue. -/
def readMeetsRead : State :=
  { waiting ⟨4000, .read 1⟩ with path := { ready.path with
      port := .own (.read .bed 0 16), current := some ⟨.read ⟨.bedIntake 0, .bed, 0, 16⟩, [], []⟩, queue := [.refresh ⟨.bed, 0, [(23, 5)]⟩] } }

/-- `readMeetsRead` once its read has been handed: the READ can be taken, and the own stream was served last. -/
def readHanded : State :=
  { readMeetsRead with path := { readMeetsRead.path with port := .free, current := none, lastServed := .own } }

/-- Section 2.11, steps 7 to 9: the refresh is not begun behind the read's last burst, and the READ is issued first. -/
theorem test_read_goes_first :
    gives (.memoryResponse .done) readMeetsRead (fun t => decide (t.path.port = .free ∧ t.path.returned.length = 1 ∧
      t.path.queue = readMeetsRead.path.queue)) = true ∧
    gives .takeTransfer readHanded (fun t => decide (t.path.port = .host ∧ t.path.queue = readMeetsRead.path.queue)) = true ∧
    readHanded.transferHeld ⟨4000, .read 1⟩ = false ∧ readHanded.readWaits ⟨4000, .read 1⟩ = false ∧ readHanded.path.lastServed = .own ∧
    readHanded.RunwayCalm := by decide +kernel

theorem test_write_is_judged :
    (waiting ⟨217, .write [⟨1, 15#4⟩]⟩).judge 217 [⟨1, 15#4⟩] = .passed [] [.bed 0 .prepare] ∧
    (waiting ⟨218, .write [⟨1, 15#4⟩]⟩).judge 218 [⟨1, 15#4⟩] = .refused 218 .state ∧
    gives .takeTransfer (waiting ⟨217, .write [⟨1, 15#4⟩]⟩) (fun t => decide (t.path.port = .host)) = true ∧
    gives .takeTransfer (waiting ⟨218, .write [⟨1, 15#4⟩]⟩) (fun t => decide (t.host.replies = [⟨.refused, []⟩])) = true := by
  decide +kernel

/-- The twin of bed 1's active segment count (R74). -/
def twinOf : List (WordRef × Word) := [(⟨.bed, 0, 50⟩, 3)]

theorem test_write_with_a_twin :
    (waiting ⟨232, .write [⟨3, 15#4⟩]⟩).judge 232 [⟨3, 15#4⟩] = .passed twinOf [] ∧
    gives .takeTransfer (waiting ⟨232, .write [⟨3, 15#4⟩]⟩) (fun t => decide (t.path.port = .host ∧
      (t.host.up.map (·.reserved)) = some true)) = true ∧
    gives .takeTransfer { waiting ⟨232, .write [⟨3, 15#4⟩]⟩ with
        path := { ready.path with answered := List.replicate 8 (bedGroup .nothing) } }
      (fun t => decide (t.path.port = .free ∧ t.path.slotWait = [.hostWrite])) = true := by decide +kernel

/-- A WRITE that waits for a slot. -/
def slotless : State := { waiting ⟨232, .write [⟨3, 15#4⟩]⟩ with path := { ready.path with slotWait := [.hostWrite] } }

theorem test_write_waits_for_its_slot : .hostWrite ∈ slotless.path.slotWait ∧
    gives .takeTransfer slotless (fun t => decide (t = finish slotless)) = true := by decide +kernel

/-- A WRITE in the port of a part that loads, or is in SAFE. -/
def waitingIn (life : Lifecycle) (known : Bool) (addr : Nat) : State :=
  { waiting ⟨addr, .write [⟨1, 15#4⟩]⟩ with dir := { ready.dir with lifecycle := life }, path := { ready.path with known := known } }

theorem test_write_in_loading :
    gives .takeTransfer (waitingIn .loading false 4000) (fun t => decide (t.path.refusal = ⟨4000, .loading, 1000⟩)) = true ∧
    gives .takeTransfer (waitingIn .loading true 4000) (fun t => decide (t.path.port = .host)) = true ∧
    gives .takeTransfer (waitingIn .loading true 217) (fun t => decide (t.path.refusal = ⟨217, .loading, 1000⟩)) = true := by
  decide +kernel

theorem test_write_in_safe :
    gives .takeTransfer (waitingIn .safe true 21) (fun t => decide ((t.host.up.map (·.events)) = some [.lifecycle false])) = true ∧
    gives .takeTransfer (waitingIn .safe true 24) (fun t => decide ((t.host.up.map (·.events)) = some [.faultClear])) = true ∧
    gives .takeTransfer (waitingIn .safe true 217) (fun t => decide ((t.host.up.map (·.events)) = some [])) = true := by
  decide +kernel

theorem test_mix_write : ready.mixWord 16 [(3, 9000)] = .pass ∧ ready.mixWord 16 [(3, 1100)] = .refuse .range ∧
    (ready.setMix 16 { ready.mix 16 with useCount := 1 }).mixWord 16 [(3, 9000)] = .refuse .inUse ∧ ready.WordLies .mix 15 3 2323 ∧
    gives (.hostWrite 2323 [⟨9000, 15#4⟩]) ready (fun t => decide ((t.mix 16).dispatch = 9000 ∧ wordAt t.mem 2323 = 9000)) = true ∧
    gives (.hostWrite 2323 [⟨1100, 15#4⟩]) ready (fun t => decide (t.mixes = ready.mixes ∧ t.path.refusal = ⟨2323, .range, 1000⟩)) = true := by
  decide +kernel

theorem test_twin_write : ready.WordLies .bed 23 49 2089 ∧
    gives (.hostWrite 2089 [⟨3, 15#4⟩]) ready (fun t => decide (wordAt t.mem 2089 = 3 ∧ t.host.replies = [] ∧
      t.path.port = .own (.write .bed 1909 [some 3]))) = true ∧
    gives (.hostWrite 2089 [⟨3, 15#4⟩]) (ready.setCureUnit 23 { ready.cureUnit 23 with bedState := .curing })
      (fun t => decide (t.mem = [] ∧ t.path.refusal = ⟨2089, .state, 1000⟩)) = true := by decide +kernel

theorem test_host_write : ready.judge 217 [⟨1, 15#4⟩] = .passed [] [.bed 0 .prepare] ∧
    ready.judge 217 [⟨10, 15#4⟩] = .refused 217 .range ∧ ready.judge 217 [⟨1, 7#4⟩] = .refused 217 .partialWord ∧
    gives (.hostWrite 217 [⟨10, 15#4⟩]) ready (fun t => decide (t.mem = [] ∧ t.path.refusal = ⟨217, .range, 1000⟩)) = true := by
  decide +kernel

/-- One word of each class, written whole or in part, and PLAN words at the edges of their tests (R2, R29, R30, R51, R116,
R132, R152). -/
theorem test_word_classes :
    let whole (s : State) (r : Region) (i o : Nat) (v : Word) : Answer := s.judgeWord [] ⟨0, ⟨r, i, o⟩, v, true⟩
    let part (r : Region) (i o : Nat) : Answer := ready.judgeWord [] ⟨0, ⟨r, i, o⟩, 0, false⟩
    let cast : State := ready.setBedUnit 23 { ready.bedUnit 23 with state := .cast }
    openWord .a .gateB 64 = true ∧ part .gateB 0 64 = .pass ∧ ownedWord .a .gateA 0 = true ∧ whole ready .gateA 0 0 0 = .refuse .state ∧
    part .gateA 0 0 = .refuse .partialWord ∧ part .bed 23 54 = .pass ∧ whole ready .bed 23 53 0 = .refuse .state ∧
    whole ready .bed 23 13 0x100 = .pass ∧ whole ready .bed 23 13 0x120 = .refuse .range ∧ whole ready .bed 23 16 5 = .refuse .range ∧
    whole cast .bed 23 13 0x100 = .refuse .state ∧ whole cast .bed 23 14 400 = .pass ∧
    ready.judgeWord [⟨0, ⟨.bed, 23, 17⟩, 1, true⟩] ⟨0, ⟨.bed, 23, 14⟩, 400, true⟩ = .refuse .busy ∧
    whole ready .roster 0 1 30 = .pass ∧ whole ready .roster 0 1 31 = .refuse .range ∧ whole ready .slot 3 0 32 = .refuse .range ∧
    whole ready .slot 3 1 6 = .pass ∧ whole ready .slot 3 1 7 = .refuse .range ∧ whole ready .slot 3 2 2 = .refuse .range ∧
    whole ready .crane 1 3 100 = .pass ∧ whole ready .crane 1 3 4 = .refuse .range ∧ whole ready .moveRing 7 6 9 = .pass ∧
    whole { ready with moves := { ready.moves with intake := some ⟨7, .waitingSlot, .none, 0, none⟩ } } .moveRing 7 6 9 = .refuse .busy := by
  decide +kernel

theorem test_memory_response :
    gives (.memoryResponse .done) (hostOnPort (.read 2)) (fun t => decide (t.host.replies = [⟨.done, [0, 0]⟩])) = true ∧
    ownWrite.path.current.isSome = true ∧
    gives (.memoryResponse .late) ownWrite (fun t => decide (t = finish ownWrite)) = true := by decide +kernel

theorem test_memory_failure :
    gives (.memoryResponse (.dataError false)) (hostOnPort (.read 2))
      (fun t => decide (t.host.replies = [⟨.dataError, []⟩] ∧ t.path.fault = some ⟨4000, .parity, .host, false, 1000⟩)) = true ∧
    gives (.memoryTimeout false) ownRead (fun t => decide (t.path.returned.length = 1 ∧
      t.path.fault = some ⟨200, .timeout, .own, false, 1000⟩)) = true ∧
    ownWrite.host.up = none ∧ ownWrite.dir.lifecycle = .running ∧
    gives (.memoryTimeout true) ownWrite (fun t => decide (t.dir.lifecycle = .safe ∧ t.dir.safeCause = .memory)) = true := by
  decide +kernel

/-- A host WRITE with a twin, or with a bed request, issued at memory. -/
def issuedWith (twins : List (WordRef × Word)) (events : List HostEvent) : State :=
  { ready with host := { ready.host with up := some ⟨⟨232, .write [⟨3, 15#4⟩]⟩, .issued, true, twins, events, twins ≠ [], false⟩ },
               path := { ready.path with port := .host } }

theorem test_written_with_a_twin :
    gives (.memoryResponse .done) (issuedWith twinOf []) (fun t => decide (wordAt t.mem 232 = 3 ∧ t.host.replies = [] ∧
      (t.path.current.map (·.item)) = some (.group ⟨.twin, [⟨.bed, 50, [some 3]⟩]⟩))) = true := by decide +kernel

theorem test_failed_host_write :
    gives (.memoryTimeout true) (issuedWith [] [.bed 23 .prepare]) (fun t => decide (t.host.replies = [⟨.dataError, []⟩] ∧
      wordAt t.mem 232 = 3 ∧ t.path.fault = some ⟨232, .timeout, .host, false, 1000⟩ ∧
      ((t.bedUnit 23).request.map (·.result)) = some .memory)) = true := by decide +kernel

theorem test_failed_own_write_in_loading :
    gives (.memoryResponse (.dataError false)) { ownWrite with dir := { ready.dir with lifecycle := .loading } }
      (fun t => decide (t.dir.lifecycle = .safe ∧ t.dir.loadCode = .memory ∧ t.dir.loadRegion = Region.bed.code ∧ t.dir.loadIndex = 0)) = true ∧
    gives (.memoryResponse (.dataError false)) { ownWrite with dir := { ready.dir with lifecycle := .safe, safeCause := .request } }
      (fun t => decide (t.dir.lifecycle = .safe ∧ t.dir.safeCause = .request)) = true := by decide +kernel

/-- `ready` with a recorded memory fault. -/
def faulted (read : Bool) : State := { ready with path := { ready.path with fault := some ⟨200, .parity, .own, read, 900⟩ } }

theorem test_fault_clear : (faulted true).Calm ∧ (faulted true).WordLies .directory 0 24 24 ∧
    gives .faultClear (faulted true) (fun t => decide (t.path.fault = none)) = true ∧
    gives .faultClear (faulted false) (fun t => decide (t.path.refusal.reason = .notSeen)) = true ∧
    gives .faultClear ready (fun t => decide (t.path.refusal.reason = .state)) = true := by decide +kernel

/-- A SCRAP whose group is kept while a taken host read covers its record. -/
def keptScrap (stage : Stage) : State :=
  { ready with
    stock := { ready.stock with pieces := ready.stock.pieces.set 31 { freePiece with
      state := .dispatched, request := some ⟨.free, .waitingSlot, .accepted⟩ }, dispatched := [32] },
    host := ⟨some ⟨⟨2780, .read 1⟩, stage, false, [], [], false, false⟩, [], []⟩,
    path := { ready.path with port := .host, kept := [.pieceResult 32] } }

def unkept (s : State) : State := s.withPath { s.path with kept := [] }

theorem test_group_admit :
    (match (form (.pieceResult 32) (unkept (keptScrap .waiting))).2, (form (.pieceResult 32) (keptScrap .waiting)).2 with
     | some (spans, c), some (spans', c') => decide (spans = spans' ∧ c = c') &&
         (keptScrap .waiting).admissible (.owner (.pieceResult 32)) spans && !(keptScrap .issued).admissible (.owner (.pieceResult 32)) spans
     | _, _ => false) = true ∧
    gives .commitGroupAdmit (keptScrap .waiting) (fun t => decide (t.path.kept = [] ∧ t.held ⟨.piece, 31⟩ = true)) = true ∧
    gives .commitGroupAdmit (keptScrap .issued) (fun t => decide (t = finish (keptScrap .issued))) = true := by decide +kernel

/-- The group admitted takes the queued refresh of its record in (R40; section 2.11, step 10). -/
theorem test_group_takes_the_refresh_in :
    let s : State := keptScrap .waiting
    gives .commitGroupAdmit { s with path := { s.path with queue := [.refresh ⟨.piece, 31, [(3, 5)]⟩] } }
      (fun t => decide (t.path.kept = [] ∧ t.held ⟨.piece, 31⟩ = true ∧ t.path.queue.any (fun x => x.isSlotOf .piece 31) = false)) = true := by
  decide +kernel

/-- A WRITE to the inactive gate list copy is issued as it is taken, with the host stream served last and an event that is
due: a swap read asked for next comes behind it (R42, R97). -/
theorem test_write_goes_before_the_swap :
    let s : State := { keptScrap .waiting with
      host := (waiting ⟨2995, .write [⟨1, 15#4⟩]⟩).host,
      path := { (keptScrap .waiting).path with port := .free, lastServed := .host } }
    gives .takeTransfer s (fun t => decide (t.path.port = .host ∧ t.path.kept = [.pieceResult 32])) = true := by decide +kernel

/-- Seven groups in flight with one that completes, and a slot waiting list whose head's event has no effect any more. -/
def waitingForSlot : State :=
  { (ready.setBedUnit 23 { ready.bedUnit 23 with deferred := [.profileEnd] }) with
    host := ⟨some ⟨⟨232, .write [⟨3, 15#4⟩]⟩, .waiting, false, [], [], false, false⟩, [], []⟩,
    path := { ready.path with answered := List.replicate 8 ⟨.nothing, []⟩, kept := [.bedEvent 23],
                              slotWait := [.owner (.bedEvent 23), .hostWrite] } }

/-- The slot that the head has no use for is handed on (R38). -/
theorem test_slot_is_handed_on : gives .commitGroupComplete waitingForSlot
    (fun t => decide (t.path.slotWait = [] ∧ (t.host.up.map (·.reserved)) = some true ∧ (t.bedUnit 23).deferred = [])) = true := by
  decide +kernel

/-- A group whose last burst has been answered. -/
def answeredGroup (c : Completion) (s : State) : State := { s with path := { s.path with answered := [bedGroup c] } }

def resulting : State :=
  ready.setBedUnit 23 { ready.bedUnit 23 with state := .prepared, request := some ⟨.prepare, .resultInFlight, 0, .accepted, [], [], [], 1000, .empty⟩ }

def intaking : State :=
  { ready.putMove 15 { Move.reset with number := 7, state := .queued } with
    moves := { (ready.putMove 15 { Move.reset with number := 7, state := .queued }).moves with
      nextIndex := 7, intake := some ⟨7, .resultInFlight, .accepted, 7, some 15⟩ } }

theorem test_group_complete :
    gives .commitGroupComplete (answeredGroup (.notices 0 3) { ready with notices := { ready.notices with groupMark := true } })
      (fun t => decide (t.notices.writtenHead = 3 ∧ t.notices.groupMark = false)) = true ∧
    (resulting.bedUnit 23).request.isSome = true ∧
    gives .commitGroupComplete (answeredGroup (.bedResult 23 [] (some (.empty, .prepared))) resulting)
      (fun t => decide ((t.bedUnit 23).request = none ∧ (t.bedUnit 23).state = .prepared)) = true ∧
    gives .commitGroupComplete (answeredGroup (.bedPart 23 []) resulting)
      (fun t => decide ((t.bedUnit 23).request.map (·.code) = some .prepare)) = true ∧
    gives .commitGroupComplete (answeredGroup (.take 23) (ready.setTake 23 .resultInFlight))
      (fun t => decide ((t.cureUnit 23).take = .none)) = true ∧
    gives .commitGroupComplete (answeredGroup .twin { (issuedWith [] []) with path := ready.path })
      (fun t => decide (t.host.replies = [⟨.done, []⟩])) = true ∧
    gives .commitGroupComplete (answeredGroup .intake intaking)
      (fun t => decide (t.moves.nextIndex = 0 ∧ (t.move 15).accepted = true ∧ t.moves.intake = none)) = true := by decide +kernel

/-- Two own reads under way: one with a burst to come, one with its last burst at memory. -/
def readingOn (rest : List Burst) : State :=
  { ready with mem := setWord [] 215 9,
               path := { ready.path with port := .own (.read .bed 0 16), current := some ⟨.read ⟨.bedIntake 0, .bed, 0, 32⟩, rest, [4]⟩ } }

theorem test_own_read_burst :
    gives (.memoryResponse .done) (readingOn [.read .bed 16 16]) (fun t => decide (t.path.returned = [] ∧
      (t.path.current.map (·.got)) = some (4 :: List.replicate 15 0 ++ [9]))) = true ∧
    gives (.memoryResponse .done) (readingOn []) (fun t => decide (t.path.current = none ∧
      t.path.returned = [⟨⟨.bedIntake 0, .bed, 0, 32⟩, some (4 :: List.replicate 15 0 ++ [9]), 0⟩] ∧
      t.held ⟨.bed, 0⟩ = true)) = true := by decide +kernel

/-- Twin words of two records, of the first its first and its last word. -/
def twinsOf : List (WordRef × Word) := [(⟨.bed, 23, 79⟩, 3), (⟨.bed, 23, 0⟩, 4), (⟨.bed, 0, 50⟩, 5)]

theorem test_twin_spans : (twinsOf.map (·.1)).Nodup ∧ (∀ x ∈ twinsOf, x.1.offset < x.1.region.recLen) ∧
    (issuedWith twinsOf []).path.queue = [] ∧ (issuedWith twinsOf []).dir.lifecycle ≠ .safe ∧
    twinSpans twinsOf = [⟨.bed, 1840, [some 4] ++ List.replicate 78 none ++ [some 3]⟩, ⟨.bed, 50, [some 5]⟩] ∧
    gives (.memoryResponse .done) (issuedWith twinsOf []) (fun t => t.held ⟨.bed, 23⟩ && t.held ⟨.bed, 0⟩) = true := by decide +kernel

/-! ### Casting beds -/

/-- `ready` with bed 24 in a state, with pieces and a cure. -/
def bedIn (st : BedState) (count : Nat) (inBed : List Nat) (context : Option CureContext) : State :=
  let set := (ready.setBedUnit 23 { ready.bedUnit 23 with state := st, mix := 16, pieceCount := count, inBed := inBed }).setCureUnit 23
    { ready.cureUnit 23 with bedState := st, maturity := 1000, context := context }
  inBed.foldl (fun s n => s.setPiece n { freePiece with state := .inBed, bed := 24, mix := 16, position := n }) set

def aProfile : Profile := ⟨1, 50, [⟨450, 15, 1, 0⟩]⟩

def cure (held : Bool) : CureContext :=
  { held := held, blind := false, overheat := false, sub := if held then .held else .running, segment := 1, phase := .moving,
    setpoint := 200, holdDone := 0, ramp := 0, duty := 10, ended := false, profile := aProfile }

theorem test_prepare : BedReady (bedIn .empty 3 [] none) 23 2057 .prepare ∧
    gives (.prepare 23) (bedIn .empty 3 [] none) (fun t => decide (BedAccepted t 23 .prepare .prepared)) = true := by decide +kernel

theorem test_stand : BedReady (bedIn .cast 3 [1, 2, 3] none) 23 2057 .stand ∧
    gives (.stand 23) (bedIn .cast 3 [1, 2, 3] none) (fun t => decide (BedAccepted t 23 .stand .standing)) = true := by decide +kernel

theorem test_detension : BedReady (bedIn .releasable 3 [1, 2, 3] none) 23 2057 .detension ∧
    gives (.detension 23) (bedIn .releasable 3 [1, 2, 3] none) (fun t => decide (BedAccepted t 23 .detension .detensioned)) = true ∧
    BedReady (bedIn .releasable 0 [] none) 23 2057 .detension ∧
    gives (.detension 23) (bedIn .releasable 0 [] none) (fun t => decide (BedAccepted t 23 .detension .empty)) = true := by
  decide +kernel

theorem test_hold : BedReady (bedIn .curing 3 [1, 2, 3] (some (cure false))) 23 2057 .hold ∧
    gives (.hold 23) (bedIn .curing 3 [1, 2, 3] (some (cure false)))
      (fun t => decide (BedAccepted t 23 .hold .curing ∧ ((t.cureUnit 23).context.map (·.duty)) = some 0)) = true := by decide +kernel

theorem test_resume : BedReady (bedIn .curing 3 [1, 2, 3] (some (cure true))) 23 2057 .resume ∧
    gives (.resume 23) (bedIn .curing 3 [1, 2, 3] (some (cure true))) (fun t => decide (BedAccepted t 23 .resume .curing)) = true := by
  decide +kernel

/-- A CAST bed with a good profile in its record, with one probe ONLINE or none. -/
def castBed (st : ProbeState) : State :=
  { bedIn .cast 3 [1, 2, 3] none with
    mem := setWords [] 2056 [some 1, none, some 2, none, none, none, none, none, none, none, none, none, none, none, none, none,
      some 1, some 50, some (BitVec.ofNat 32 (450 + 15 * 65536)), some 1],
    roster := [{ probe 1 30 (.bed 23) st with air := 201 }] }

theorem test_start_cure : BedReady (castBed .online) 23 2057 .startCure ∧
    profileTest (activeProfile (intakeRecord (castBed .online) 23 2057 .startCure)) = .none ∧
    gives (.startCure 23) (castBed .online)
      (fun t => decide (BedAccepted t 23 .startCure .curing ∧ ((t.cureUnit 23).context.map (·.setpoint)) = some 201)) = true := by
  decide +kernel

theorem test_start_cure_refused : BedReady (castBed .suspect) 23 2057 .startCure ∧
    gives (.startCure 23) (castBed .suspect) (fun t => decide ((t.bedUnit 23).state = .cast ∧
      ((t.bedUnit 23).request.map (·.result)) = some .probes)) = true ∧
    BedReady (bedIn .cast 3 [] none) 23 2057 .startCure ∧
    gives (.startCure 23) (bedIn .cast 3 [] none) (fun t => decide (((t.bedUnit 23).request.map (·.result)) = some .noProfile)) = true := by
  decide +kernel

theorem test_end_cure : BedReady (bedIn .curing 3 [1, 2, 3] (some (cure false))) 23 2057 .endCure ∧
    ((bedIn .curing 3 [1, 2, 3] (some (cure false))).cureUnit 23).take = .none ∧
    gives (.endCure 23) (bedIn .curing 3 [1, 2, 3] (some (cure false)))
      (fun t => decide (BedAccepted t 23 .endCure .releasable ∧ (t.cureUnit 23).context = none)) = true := by decide +kernel

/-- A bed whose last deferred event is taken while a request waits for its intake read. -/
def waitingRead : State :=
  (bedIn .curing 3 [] (some (cure false))).setBedUnit 23 { (bedIn .curing 3 [] (some (cure false))).bedUnit 23 with
    deferred := [.profileEnd], request := some ⟨.hold, .waitingRead, 0, .none, [], [], [], 0, .empty⟩ }

/-- The intake read stands behind the group of the event (R7). -/
theorem test_read_stands_behind_the_event : (match (tryJob (.bedEvent 23) waitingRead).path.queue with
    | [.group _, .read rd] => decide (rd.purpose = .bedIntake 23)
    | _ => false) = true := by decide +kernel

def discarding (stage : TakeStage) : State := (bedIn .curing 3 [1] (some (cure false))).setTake 23 stage

/-- An END_CURE whose result waits for its group. -/
def endCureResult (stage : TakeStage) : State :=
  (discarding stage).setBedUnit 23 { (discarding stage).bedUnit 23 with
    request := some ⟨.endCure, .waitingSlot, 0, .accepted, [], [], [], 0, .releasable⟩ }

theorem test_end_cure_discards_the_take :
    BedReady (discarding .waitingSegmentEnd) 23 2057 .endCure ∧
    [TakeStage.waitingSegmentEnd, .readInFlight, .formed .taken [1]].all (fun take => gives (.endCure 23) (discarding take)
      (fun t => decide (BedAccepted t 23 .endCure .releasable ∧ (t.cureUnit 23).take = .discarding))) = true ∧
    ((discarding .waitingSegmentEnd).bed 23).alarm.conditions = 0 ∧
    (form (.bedRequest 23) (endCureResult .discarding)).2.map (·.1) = some [recordSpan .bed 23
      [(17, 0), (30, resultWord 7 .accepted), (18, .ofCount BedState.releasable.toNat), (26, 0), (52, 0), (53, .ofCount Code.discarded.toNat)]] ∧
    ((form (.bedRequest 23) (endCureResult .none)).2.map (·.2)) = some (.bedResult 23 [] (some (.curing, .releasable))) := by
  decide +kernel

theorem test_discarded_take_ends :
    gives .commitGroupComplete { endCureResult .discarding with path := { ready.path with answered := [⟨.bedResult 23 [] none, []⟩] } }
      (fun t => decide ((t.cureUnit 23).take = .none)) = true ∧
    gives .ownReadDone { endCureResult .discarding with
        path := { ready.path with returned := [⟨⟨.take 23, .bed, 1840, 80⟩, some [], 0⟩] } }
      (fun t => decide ((t.cureUnit 23).take = .discarding ∧ t.path.outbox = [])) = true := by decide +kernel

theorem test_cast : BedReady (bedIn .prepared 12 [] none) 23 2057 .cast ∧
    gives (.cast 23) (bedIn .prepared 12 [] none) (fun t => decide (t.freeCount = 20 ∧ (t.bedUnit 23).state = .cast ∧
      (t.bedUnit 23).inBed = [1, 2, 3, 4, 5, 6, 7, 8, 9, 10, 11, 12])) = true := by decide +kernel

/-- A CAST whose result waits for its group. -/
def castResult (pieces : List Nat) : State :=
  let s := bedIn .prepared pieces.length [] none
  s.setBedUnit 23 { s.bedUnit 23 with
    request := some ⟨.cast, .waitingSlot, 0, .accepted, pieces, pieces, List.replicate 12 2060, 1000, .empty⟩ }

theorem test_cast_part : (runsOf [1, 3, 5, 7, 9, 11, 13]).length = 7 ∧ [1, 3, 5, 7, 9, 11, 13].Nodup ∧
    (∀ n ∈ [1, 3, 5, 7, 9, 11, 13], ((castResult [1, 3, 5, 7, 9, 11, 13]).piece? n).isSome = true) ∧
    (match form (.bedRequest 23) (castResult [1, 3, 5, 7, 9, 11, 13]) with
     | (after, some (spans, done)) => decide (spans.length = 6 ∧ done = .bedPart 23 [] ∧ (after.bedUnit 23).state = .prepared ∧
         ((after.bedUnit 23).request.map (·.toWrite)) = some [13] ∧ (after.piece? 11).map (·.state) = some .inBed)
     | _ => false) = true := by decide +kernel

theorem test_cast_group : (runsOf [1, 2, 32]).length ≤ 5 ∧ (∀ n ∈ [1, 2, 32], ((castResult [1, 2, 32]).piece? n).isSome = true) ∧
    (match form (.bedRequest 23) (castResult [1, 2, 32]) with
     | (after, some (spans, _)) => decide (spans.length ≤ 6 ∧ (after.bedUnit 23).state = .cast ∧ (after.bedUnit 23).inBed = [1, 2, 32] ∧
         (after.mix 16).useCount = 3 ∧
         (after.piece? 32).map (fun p => (p.state, p.position)) = some (.inBed, 3))
     | _ => false) = true := by decide +kernel

theorem test_clear : BedReady (bedIn .cast 3 [2, 1, 3] none) 23 2057 .clear ∧
    (runsOf (sortBy id ((bedIn .cast 3 [2, 1, 3] none).bedUnit 23).inBed)).length ≤ 5 ∧
    (∀ n ∈ ((bedIn .cast 3 [2, 1, 3] none).bedUnit 23).inBed, ((bedIn .cast 3 [2, 1, 3] none).piece? n).isSome = true) ∧
    gives (.clear 23) (bedIn .cast 3 [2, 1, 3] none) (fun t => decide (BedAccepted t 23 .clear .empty ∧
      (t.piece? 2).map (·.state) = some .freeing)) = true ∧
    BedReady (bedIn .prepared 3 [] none) 23 2057 .clear := by decide +kernel

/-- A CLEAR whose result waits for its group. -/
def clearResult (pieces : List Nat) : State :=
  (bedIn .cast pieces.length pieces none).setBedUnit 23 { (bedIn .cast pieces.length pieces none).bedUnit 23 with
    inBed := [], request := some ⟨.clear, .waitingSlot, 0, .accepted, pieces, pieces, [], 0, .empty⟩ }

theorem test_clear_groups :
    BedReady (bedIn .cast 7 [1, 3, 5, 7, 9, 11, 13] none) 23 2057 .clear ∧
    (runsOf [1, 3, 5, 7, 9, 11, 13]).length = 7 ∧
    (match form (.bedRequest 23) (clearResult [1, 3, 5, 7, 9, 11, 13]) with
     | (after, some (spans, done)) => decide (spans.length = 6 ∧ done = .bedPart 23 [1, 3, 5, 7, 9, 11] ∧
         (after.bedUnit 23).state = .cast ∧ (after.bedUnit 23).request.map (·.toWrite) = some [13] ∧
         (after.piece? 11).map (·.state) = some .freeing)
     | _ => false) = true ∧
    (runsOf [13]).length ≤ 5 ∧
    (match form (.bedRequest 23) (clearResult [13]) with
     | (after, some (spans, done)) => decide (spans.length = 2 ∧ done = .bedResult 23 [13] (some (.cast, .empty)) ∧
         (after.bedUnit 23).state = .empty)
     | _ => false) = true ∧
    gives .commitGroupComplete { (clearResult [5]).setPiece 3 { freePiece with state := .freeing } with path := { ready.path with answered := [⟨.bedPart 23 [1, 3], []⟩] } }
      (fun t => decide (t.freeCount = 34 ∧ (t.piece? 3).map (·.state) = some .free)) = true := by decide +kernel

theorem test_clear_completes : [1, 3, 5].Nodup ∧ (∀ n ∈ [1, 3, 5], ((clearResult [1, 3, 5]).piece? n).isSome = true) ∧
    (clearResult [1, 3, 5]).dir.lifecycle = .running ∧
    gives .commitGroupComplete { (clearResult [1, 3, 5]).setMix 16 { ready.mix 16 with useCount := 5 } with
        path := { ready.path with answered := [⟨.bedResult 23 [1, 3, 5] (some (.cast, .empty)), []⟩] } }
      (fun t => decide (t.freeCount = 35 ∧ (t.piece? 5).map (·.state) = some .free ∧ (t.mix 16).useCount = 2 ∧
        (t.bedUnit 23).request = none ∧ (t.notices.writeList.map (·.kind)) = [.bedState])) = true := by decide +kernel

theorem test_cast_takes_the_free_pieces :
    let s := (bedIn .prepared 2 [] none).setPiece 2 { freePiece with state := .inStock }
    BedReady s 23 2057 .cast ∧
    gives (.cast 23) s (fun t => decide ((t.bedUnit 23).inBed = [1, 3])) = true := by decide +kernel

/-- Each edge of the profile test (R76): counts 0, 8 and 9, bands 9 and 201, a target of 700 and 701, a segment past the count. -/
theorem test_profile_edges :
    let record (count band target : Nat) : List Word :=
      List.replicate 32 0 ++ [.ofNat 32 count, .ofNat 32 band, .ofNat 32 target, 0] ++ List.replicate 44 0
    (record 1 10 700).length = 80 ∧ profileVerdict (record 0 10 700) 32 34 = .noProfile ∧
    profileVerdict (record 9 10 700) 32 34 = .noProfile ∧ profileVerdict (record 8 9 700) 32 34 = .noProfile ∧
    profileVerdict (record 8 201 700) 32 34 = .noProfile ∧ profileVerdict (record 8 200 700) 32 34 = .none ∧
    profileVerdict (record 1 10 701) 32 34 = .badSegment ∧ profileVerdict (record 1 10 65136) 32 34 = .none ∧
    profileVerdict (record 1 10 65135) 32 34 = .badSegment ∧
    profileTest (activeProfile (record 1 10 65135)) = .badSegment := by decide +kernel

/-! ### Section 2.11, steps 7 to 10: a hold is released while a READ waits -/

/-- The intake read of a PREPARE has returned, and a READ of the bed's record waits for it. -/
def readReturned : State :=
  { ((bedIn .empty 3 [] none).setBedUnit 23 { (bedIn .empty 3 [] none).bedUnit 23 with
      request := some ⟨.prepare, .readInFlight, 0, .none, [], [], [], 0, .empty⟩ }) with
    host := ⟨some ⟨⟨2040, .read 1⟩, .waiting, false, [], [], false, false⟩, [], []⟩,
    path := { ready.path with returned := [⟨⟨.bedIntake 23, .bed, 1840, 80⟩, some (List.replicate 80 0), 0⟩] } }

/-- The state behind a command, where it answers next. -/
def behind (c : Instr) (s : State) : State := match exec c s with | .next t => t | _ => s

/-- The result group waits, and the READ is still to be taken. -/
theorem test_release_leaves_the_order_open : readReturned.transferHeld ⟨2040, .read 1⟩ = true ∧
    gives .ownReadDone readReturned (fun t => decide (t.path.kept = [.bedRequest 23] ∧ t.path.queue = [] ∧
      (t.host.up.map (·.stage)) = some .waiting ∧ t.transferHeld ⟨2040, .read 1⟩ = false)) = true := by decide +kernel

/-- The READ is taken first, and the group waits for its response. -/
theorem test_read_taken_before_the_group :
    gives .takeTransfer (behind .ownReadDone readReturned) (fun t => decide (t.path.port = .host ∧ t.path.kept = [.bedRequest 23])) = true ∧
    gives .commitGroupAdmit (behind .takeTransfer (behind .ownReadDone readReturned))
      (fun t => decide (t.path.kept = [.bedRequest 23])) = true ∧
    gives .commitGroupAdmit (behind (.memoryResponse .done) (behind .takeTransfer (behind .ownReadDone readReturned)))
      (fun t => decide (t.path.kept = [] ∧ t.held ⟨.bed, 23⟩ = true ∧ (t.bedUnit 23).state = .prepared)) = true := by decide +kernel

/-- The group is admitted first, and holds the READ. -/
theorem test_group_admitted_before_the_read :
    gives .commitGroupAdmit (behind .ownReadDone readReturned) (fun t => decide (t.path.kept = [] ∧ t.held ⟨.bed, 23⟩ = true)) = true ∧
    gives .takeTransfer (behind .commitGroupAdmit (behind .ownReadDone readReturned))
      (fun t => decide ((t.host.up.map (·.stage)) = some .waiting)) = true := by decide +kernel

/-! ### Probe loops -/

/-- Loop 3 in a line state with one polled probe, and a poll. -/
def looped (line : LineState) (st : ProbeState) (miss good : Nat) (poll : Option Poll) : State :=
  { ready.setLoop 3 { ready.loop 3 with line := line, poll := poll, tx := if line = .idleSending then .startSequence else .released } with
    roster := [probe 1 1 (.bed 0) .offline, { probe 3 30 .yard st with miss := miss, good := good }] }

theorem test_poll_slot :
    nextPolled (looped .running .suspect 0 0 none).roster 3 none = some 1 ∧
    gives (.pollSlot 3) (looped .running .suspect 0 0 none) (fun t => decide ((t.loop 3).poll = some ⟨1, false, false, []⟩ ∧
      (t.loop 3).tx = .poll [false, false, true, true, true, true, false, false, false, true, true,
        false, true, false, false, false, false, false, false, false, false, true])) = true ∧
    nextPolled (looped .running .offline 0 0 none).roster 3 none = none ∧
    gives (.pollSlot 3) (looped .running .suspect 0 0 (some ⟨1, false, true, []⟩)) (fun t => (t.loop 3).slotPending) = true ∧
    gives (.pollSlot 3) (looped .stuck .suspect 255 0 none)
      (fun t => decide ((t.roster[1]?).map (fun e => (e.outcome, e.miss)) = some (.stuck, 255))) = true ∧
    gives (.pollSlot 3) (looped .idleSending .suspect 0 0 none) (fun t => decide ((t.loop 3).poll = none)) = true := by
  decide +kernel

theorem test_poll_sent :
    gives (.pollSent 3) (looped .running .suspect 0 0 (some ⟨1, false, false, []⟩))
      (fun t => decide ((t.loop 3).poll = some ⟨1, false, true, []⟩ ∧ (t.loop 3).tx = .released)) = true := by decide +kernel

/-- A poll that waits for its reply. -/
def polled (st : ProbeState) (miss good : Nat) : State := looped .running st miss good (some ⟨1, false, true, []⟩)

def polledEntry (st : ProbeState) (miss good : Nat) : ProbeEntry := { probe 3 30 .yard st with miss := miss, good := good }

theorem test_poll_waits : PollWaits (polled .online 0 0) 3 ⟨1, false, true, []⟩ (polledEntry .online 0 0) ∧
    PollWaits (polled .suspect 2 0) 3 ⟨1, false, true, []⟩ (polledEntry .suspect 2 0) ∧
    PollWaits (polled .lost 9 0) 3 ⟨1, false, true, []⟩ (polledEntry .lost 9 0) := by decide +kernel

/-- What a line sends, as its receiver samples it: idle, the levels of its characters, and the gap that ends the block. -/
def lineOf (levels : List Bool) (gap : Nat) : List Bool :=
  true :: levels.flatMap (List.replicate 16) ++ List.replicate gap true

/-- The characters of a probe's reply, up to the end of its gap. -/
def replyOf (vs : List Nat) : List Bool := lineOf (vs.flatMap (fun v => loopFrame (.ofNat 8 v) false)) 353

/-- A reply of wire address 30 with core 50.0 and air 20.0. -/
def goodReply : List Bool := replyOf [30, 1, 244, 0, 200, 219]

/-- A character whose stop bit reads 0; its gap starts when the line next reads high. -/
def brokenReply : List Bool := lineOf (false :: dataBits 0 ++ [false, false]) 354

/-- The outcome that a line gives, once its gap has ended the block and left nothing behind it. -/
def heardAs (address : Nat) (samples : List Bool) : Option Outcome :=
  let h := loopForm.listen LineReceiver.reset [] samples
  if h.ended ∧ h.rest = [] then some (judgeReply address h.chars) else none

theorem test_outcomes :
    heardAs 30 goodReply = some (.good ⟨500, 200⟩) ∧ heardAs 29 goodReply = some (.miss .echo) ∧
    heardAs 30 (replyOf [30, 1, 244, 0, 200]) = some (.miss .partialReply) ∧
    heardAs 30 (replyOf [30, 1, 244, 0, 200, 220]) = some (.miss .check) ∧
    heardAs 30 (replyOf [30, 4, 177, 0, 200, 155]) = some (.miss .range) ∧ heardAs 30 brokenReply = some .framing := by decide +kernel

theorem test_good_outcome :
    gives (.probeReply 3 goodReply) (polled .suspect 2 0)
      (fun t => decide ((t.roster[1]?).map (fun e => (e.state, e.good, e.core)) = some (.suspect, 1, 500))) = true ∧
    gives (.probeReply 3 goodReply) (polled .suspect 0 1) (fun t => decide ((t.roster[1]?).map (·.state) = some .online)) = true ∧
    gives (.probeReply 3 goodReply) (polled .lost 255 0) (fun t => decide ((t.roster[1]?).map (·.state) = some .suspect)) = true := by
  decide +kernel

theorem test_miss_outcome :
    gives (.replyWindowExpiry 3) (polled .online 255 0)
      (fun t => decide ((t.roster[1]?).map (fun e => (e.state, e.miss, e.outcome)) = some (.suspect, 255, .timeout))) = true ∧
    gives (.replyLimitExpiry 3) (polled .suspect 2 1)
      (fun t => decide ((t.roster[1]?).map (fun e => (e.state, e.miss, e.good)) = some (.lost, 3, 0))) = true ∧
    gives (.replyLimitExpiry 3) (polled .suspect 1 0) (fun t => decide ((t.roster[1]?).map (·.state) = some .suspect)) = true := by
  decide +kernel

theorem test_framing_outcome :
    gives (.probeReply 3 brokenReply) (polled .lost 5 0) (fun t => decide ((t.roster[1]?).map (·.state) = some .barred ∧
      (t.loop 3).poll = none)) = true := by decide +kernel

/-- The six characters of a reply as the receiver hands them over. -/
def rxChars (vs : List Nat) : List RxChar := vs.map (fun v => ⟨BitVec.ofNat 8 v, false, false, false⟩)

theorem test_reply_order :
    (rxChars [30, 1, 244, 0, 200, 219]).any (·.framing) = false ∧ (rxChars [30, 1, 244, 0, 200]).length < 6 ∧
    judgeReply 30 ((rxChars [30, 1, 244, 0, 200]) ++ [⟨219, true, true, false⟩]) = .miss .collision ∧
    judgeReply 30 ((rxChars [30, 1, 244, 0, 200]) ++ [⟨219, false, true, false⟩]) = .miss .noise := by decide +kernel

theorem test_samples_move_the_timers :
    gives (.probeReply 3 [false, true, false]) ((looped .running .online 0 0 none).setLoop 3
        { (looped .running .online 0 0 none).loop 3 with lowTimer := 40 }) (fun t => decide ((t.loop 3).lowTimer = 0)) = true ∧
    gives (.probeReply 3 [false, false]) ((looped .running .online 0 0 none).setLoop 3
        { (looped .running .online 0 0 none).loop 3 with lowTimer := 40 }) (fun t => decide ((t.loop 3).lowTimer = 40)) = true ∧
    gives (.probeReply 3 [true, false]) ((looped .stuck .online 0 0 none).setLoop 3
        { (looped .stuck .online 0 0 none).loop 3 with highTimer := 40 }) (fun t => decide ((t.loop 3).highTimer = 0)) = true := by
  decide +kernel

theorem test_line_timers :
    gives (.lowTimerExpiry 3) (looped .running .online 0 0 (some ⟨1, false, true, []⟩))
      (fun t => decide ((t.loop 3).line = .stuck ∧ (t.roster[1]?).map (·.outcome) = some .stuck)) = true ∧
    gives (.highTimerExpiry 3) (looped .stuck .online 0 0 none) (fun t => decide ((t.loop 3).line = .idleSending)) = true ∧
    gives (.breakRetryExpiry 3) (looped .stuck .online 0 0 none) (fun t => decide ((t.loop 3).tx = .breakOnly)) = true ∧
    gives (.startSequenceDone 3) (looped .idleSending .online 0 0 none) (fun t => decide ((t.loop 3).line = .running)) = true := by
  decide +kernel

theorem test_enable_on : ready.WordLies .roster 3 3 2951 ∧ (ready.roster[3]?).map (·.state) = some .offline ∧
    (∀ m f, m ≠ 3 → ready.roster[m]? = some f → f.state ≠ .offline → (f.loop, f.address) ≠ (0, 4)) ∧
    gives (.enableOn 3) ready (fun t => decide (t.roster[3]? = some (probe 0 4 .yard .suspect))) = true := by
  refine ⟨by decide +kernel, by decide +kernel, ?_, by decide +kernel⟩
  intro m f _ h k
  exfalso
  have : ∀ e ∈ ready.roster, e.state = .offline := by decide
  exact k (this f (List.mem_of_getElem? h))

theorem test_enable_off : (polled .lost 9 0).Calm ∧ (polled .lost 9 0).WordLies .roster 1 3 2919 ∧
    gives (.enableOff 1) (polled .lost 9 0)
      (fun t => decide ((t.roster[1]?).map (·.state) = some .offline ∧ (t.loop 3).poll.map (·.abandoned) = some true)) = true ∧
    gives (.enableOff 1) (polled .barred 0 0) (fun t => decide ((t.roster[1]?).map (·.state) = some .barred ∧ t.mem = [])) = true := by
  decide +kernel

/-- `ready` with entry 4 on loop 1 at the wire address of its first entry, and that many SUSPECT entries beside it. -/
def crowded (address others : Nat) : State :=
  { ready with roster := (List.range 3).map (fun k => probe 1 (k + 1) .nothing .offline) ++ [probe 1 address .nothing .offline] ++
      (List.range others).map (fun k => probe 1 (k + 1) .nothing .suspect) }

theorem test_enable_refused : (crowded 1 1).Calm ∧ (crowded 1 1).WordLies .roster 3 3 2951 ∧
    (crowded 1 1).roster[3]? = some (probe 1 1 .nothing .offline) ∧ (crowded 1 1).roster[4]? = some (probe 1 1 .nothing .suspect) ∧
    gives (.enableOn 3) (crowded 1 1) (fun t => decide (t.path.refusal = ⟨2951, .inUse, 1000⟩ ∧ t.mem = [])) = true ∧
    gives (.enableOn 3) (crowded 30 16) (fun t => decide (t.path.refusal = ⟨2951, .range, 1000⟩ ∧ t.mem = [])) = true ∧
    gives (.enableOn 3) (crowded 30 15) (fun t => decide ((t.roster[3]?).map (·.state) = some .suspect)) = true := by decide +kernel

theorem test_enable_without_effect :
    gives (.enableOff 3) ready (fun t => decide (t.roster = ready.roster ∧ t.host.replies = [⟨.done, []⟩])) = true ∧
    gives (.enableOn 1) (polled .barred 0 0)
      (fun t => decide (t.roster = (polled .barred 0 0).roster ∧ wordAt t.mem 2919 = 1)) = true := by decide +kernel

/-! ### Curing, maturity and steam -/

/-- `ready` with bed 24 in a state and one fresh ONLINE probe for it. -/
def sensed (st : BedState) (context : Option CureContext) (core air : Int) : State :=
  let s := bedIn st 3 [] context
  { s with
    mem := setWord [] 2056 1,
    roster := [{ probe 1 30 (.bed 23) .online with core := core, air := air, readingTime := 995 },
               { probe 1 29 .yard .online with air := 0, readingTime := 990 }] }

theorem test_control_step :
    (sensed .cast none 300 250).dir.lifecycle = .running ∧ ((sensed .cast none 300 250).cureUnit 23).bedState ∉ [.empty, .prepared] ∧
    (sensed .cast none 300 250).qualifying (.bed 23) ≠ [] ∧ (sensed .cast none 300 250).qualifying (.bed 0) = [] ∧
    gives .controlStep (sensed .cast none 300 250)
      (fun t => decide ((t.cureUnit 23).core = 300 ∧ (t.cureUnit 23).sighted = true ∧ t.cureUnit 0 = ready.cureUnit 0)) = true := by
  decide +kernel

theorem test_control_step_of_a_cure :
    ((sensed .curing (some (cure false)) 701 250).cureUnit 23).context = some (cure false) ∧
    gives .controlStep (sensed .curing (some (cure false)) 701 250)
      (fun t => decide ((t.cureUnit 23).context.map (fun c => (c.sub, c.duty)) = some (.overheat, 0))) = true ∧
    gives .controlStep (sensed .curing (some (cure false)) 300 100)
      (fun t => decide ((t.cureUnit 23).context.map (fun c => (c.sub, c.duty)) = some (.running, 200) ∧ (t.steamBed 23).demand = 200)) = true := by
  decide +kernel

/-- A cure at a place of its two segments, the second guarded and held for a minute. -/
def curingAt (segment : Nat) (phase : Phase) (done ramp : Nat) : CureContext :=
  { cure false with segment := segment, phase := phase, holdDone := done, ramp := ramp,
                    profile := ⟨2, 50, [⟨450, 15, 0, 0⟩, ⟨300, 0, 1, 1⟩]⟩ }

theorem test_segment_advance :
    gives .controlStep (sensed .curing (some (curingAt 1 .moving 0 30)) 650 175)
      (fun t => decide ((t.cureUnit 23).context.map (fun c => (c.setpoint, c.ramp, c.phase, c.duty, c.overheat)) =
        some (203, 0, .moving, 112, false))) = true ∧
    gives .controlStep (sensed .curing (some (curingAt 1 .holding 0 0)) 690 250)
      (fun t => decide ((t.cureUnit 23).context.map (fun c => (c.segment, c.phase, c.overheat)) = some (2, .moving, false))) = true ∧
    gives .controlStep (sensed .curing (some { curingAt 2 .moving 0 0 with overheat := true }) 690 250)
      (fun t => decide ((t.cureUnit 23).context.map (fun c => (c.setpoint, c.phase, c.sub)) = some (300, .holding, .overheat))) = true ∧
    gives .controlStep (sensed .curing (some (curingAt 2 .holding 20 0)) 300 279)
      (fun t => decide ((t.cureUnit 23).context.map (·.holdDone) = some 20)) = true ∧
    gives .controlStep (sensed .curing (some (curingAt 2 .holding 50 0)) 300 280)
      (fun t => decide ((t.cureUnit 23).context = none ∧ (t.bedUnit 23).state = .releasable)) = true := by decide +kernel

theorem test_take_at_the_segment_end :
    gives .controlStep ((sensed .curing (some (curingAt 2 .holding 50 0)) 300 280).setTake 23 .waitingSegmentEnd)
      (fun t => decide ((t.cureUnit 23).take = .readInFlight ∧ (t.path.current.map (·.item)) = some (.read ⟨.take 23, .bed, 1840, 80⟩) ∧
        (t.cureUnit 23).context.map (·.ended) = some false)) = true := by decide +kernel

def sighted : State :=
  (bedIn .cast 3 [] none).setCureUnit 23 { (bedIn .cast 3 [] none).cureUnit 23 with bedState := .cast, sighted := true, core := 250, maturity := 4294967000 }

theorem test_maturity_step :
    gives .maturityStep sighted (fun t => decide ((t.cureUnit 23).maturity = 4294967295 ∧ (t.cureUnit 0).maturity = 0)) = true := by
  decide +kernel

/-- Bed 24 is STANDING, one step below its release threshold, with an event that waits or none. -/
def standingBed (deferred : List BedEvent) : State :=
  let s := bedIn .standing 3 [1] none
  (s.setCureUnit 23 { s.cureUnit 23 with bedState := .standing, sighted := true, core := 250, maturity := 990 }).setBedUnit 23
    { s.bedUnit 23 with deferred := deferred }

theorem test_release_reached :
    gives .maturityStep (standingBed []) (fun t => decide ((t.bedUnit 23).state = .releasable ∧ (t.bedUnit 23).deferred = [])) = true ∧
    (maturityStep (standingBed [])).path.outbox = [.bedEvent 23] ∧
    (maturityStep (standingBed [.profileEnd])).path.outbox = [] ∧
    ((maturityStep (standingBed [.profileEnd])).bedUnit 23).deferred = [.profileEnd, .releaseReached] ∧
    (form (.bedEvent 23) (standingBed [.releaseReached])).2 =
      some ([⟨.bed, 23 * 80 + 18, [some 5]⟩], .bedEvent 23 (some (.standing, .releasable))) ∧
    form (.bedEvent 23) (standingBed [.profileEnd]) = (standingBed [], none) := by decide +kernel

/-- A CURING bed with a take that its cure's end discards, or one that is discarded already. -/
theorem test_profile_end_is_taken :
    let s (take : TakeStage) : State := ((bedIn .curing 3 [1] (some (cure false))).setTake 23 take).setBedUnit 23
      { (bedIn .curing 3 [1] (some (cure false))).bedUnit 23 with deferred := [.profileEnd] }
    ((s .none).bedUnit 23).deferred = [.profileEnd] ∧ ((form (.bedEvent 23) (s .none)).1.bedUnit 23).state = .releasable ∧
    ((form (.bedEvent 23) (s .waitingSegmentEnd)).1.cureUnit 23).take = .discarding ∧
    ((form (.bedEvent 23) (s .resultInFlight)).1.cureUnit 23).take = .resultInFlight ∧
    gives .commitGroupComplete (answeredGroup (.bedEvent 23 (some (.curing, .standing))) (s .discarding))
      (fun t => decide ((t.cureUnit 23).take = .none ∧ (t.notices.writeList.map (·.kind)) = [.bedState])) = true := by decide +kernel

/-- `busy` with a gate list whose first entry opens bed 1 and whose second opens bed 24. -/
def gated (index : Nat) (pending : Bool) : State :=
  { busy with steam := { busy.steam with entries := [⟨60, 1⟩, ⟨30, 0x800000⟩], index := index, secondsLeft := 5, swapPending := pending } }

theorem test_gate_entry_expiry :
    gives .gateEntryExpiry (gated 1 false) (fun t => decide (t.steam.index = 2 ∧ t.steam.secondsLeft = 30 ∧ (t.steamBed 0).valve = false)) = true ∧
    gives .gateEntryExpiry (gated 2 true) (fun t => decide (t.steam.index = 1 ∧ t.steam.secondsLeft = 60 ∧ (t.steamBed 0).valve = true ∧
      t.steam.swapRead = true ∧ t.steam.swapPending = false)) = true := by decide +kernel

theorem test_gate_wrap_in_a_swap_read :
    let s : State := gated 2 true
    gives .gateEntryExpiry { s with steam := { s.steam with swapRead := true } } (fun t => decide (t.steam.index = 1 ∧
      t.steam.swapRead = true ∧ t.steam.swapPending = true ∧ t.path.queue.any (fun x => decide (x = .read ⟨.swap, .gateB, 0, 65⟩)) = false)) = true := by
  decide +kernel

theorem test_take : (bedIn .curing 3 [] (some (cure false))).Calm ∧ (bedIn .curing 3 [] (some (cure false))).WordLies .bed 23 52 2092 ∧
    ((bedIn .curing 3 [] (some (cure false))).cureUnit 23).take = .none ∧
    gives (.take 23) (bedIn .curing 3 [] (some (cure false))) (fun t => decide ((t.cureUnit 23).take = .waitingSegmentEnd)) = true := by
  decide +kernel

theorem test_take_refused :
    let s : State := (bedIn .curing 3 [] (some (cure false))).setTake 23 .resultInFlight
    s.Calm ∧ ready.WordLies .bed 23 52 2092 ∧ (ready.cureUnit 23).bedState = .empty ∧
    gives (.take 23) s (fun t => decide (t.path.refusal = ⟨2092, .busy, 1000⟩ ∧ t.mem = s.mem)) = true ∧
    gives (.take 23) ready (fun t => decide (t.path.refusal = ⟨2092, .state, 1000⟩ ∧ (t.cureUnit 23).take = .none)) = true := by
  decide +kernel

def swapping (pending reading cancelled : Bool) : State :=
  { ready with steam := { ready.steam with swapPending := pending, swapRead := reading, cancelled := cancelled } }

theorem test_swap : gives .swap ready (fun t => t.steam.swapPending) = true ∧ (swapping true false false).Calm ∧
    gives .swap (swapping true false false) (fun t => decide (t.host.replies = [⟨.refused, []⟩])) = true := by decide +kernel

theorem test_cancel : gives .cancel (swapping true false false) (fun t => !t.steam.swapPending) = true ∧
    gives .cancel (swapping false true false) (fun t => t.steam.cancelled) = true ∧ (swapping false true true).Calm ∧
    gives .cancel (swapping false true true) (fun t => decide (t.host.replies = [⟨.refused, []⟩])) = true ∧
    gives .cancel ready (fun t => decide (t.host.replies = [⟨.refused, []⟩])) = true := by decide +kernel

/-- A returned read at the head of the list. -/
def returned (p : ReadFor) (r : Region) (data : Option (List Word)) (s : State) : State :=
  { s with path := { s.path with returned := [⟨⟨p, r, 0, 80⟩, data, 0⟩] } }

theorem test_swap_read_returns :
    gateTest [1, 60, 1] = .none ∧ gateTest [33] = .count ∧ gateTest [1, 0, 1] = .duration ∧ gateTest [1, 60, 0x1000000] = .beds ∧
    gives .ownReadDone (returned .swap .gateB (some [1, 60, 1]) (swapping false true false))
      (fun t => decide (t.steam.active = .b ∧ t.steam.index = 1 ∧ t.steam.secondsLeft = 60)) = true ∧
    gives .ownReadDone (returned .swap .gateB (some [33]) (swapping false true false)) (fun t => decide (t.steam.active = .a)) = true ∧
    gives .ownReadDone (returned .swap .gateB (some [1, 60, 1]) (swapping false true true)) (fun t => decide (t.steam.active = .a)) = true ∧
    gives .ownReadDone (returned .swap .gateB none (swapping false true false)) (fun t => decide (t.steam.active = .a)) = true := by
  decide +kernel

/-- Each edge of the gate test (R101): counts 32 and 33, durations 0, 1, 3,600 and 3,601, bed 24 and the bit above it. -/
theorem test_gate_edges :
    let list (count : Nat) (duration opens : Nat) : List Word := .ofNat 32 count :: (List.replicate 32 [.ofNat 32 duration, .ofNat 32 opens]).flatten
    (list 32 1 1).length = 65 ∧ gateVerdict (list 33 0 1) = .count ∧ gateVerdict (list 32 1 1) = .none ∧
    gateVerdict (list 32 0 1) = .duration ∧ gateVerdict (list 1 3600 0x800000) = .none ∧ gateVerdict (list 1 3601 0x1000000) = .duration ∧
    gateVerdict (list 1 3600 0x1000000) = .beds ∧ gateVerdict (list 0 0 0x1000000) = .none ∧
    gateTest (list 1 3600 0x1000000) = .beds := by decide +kernel

theorem test_returned_read_leaves_the_hold_set :
    let s := returned .swap .gateB none (swapping false true false)
    (⟨.swap, .gateB, 0, 80⟩ : OwnRead).touches ⟨.gateB, 0⟩ = true ∧ s.held ⟨.gateB, 0⟩ = true ∧
    (s.withPath { s.path with returned := [] }).held ⟨.gateB, 0⟩ = false ∧
    gives .ownReadDone s (fun t => !t.held ⟨.gateB, 0⟩) = true := by decide +kernel

/-- A failed load read at the head of the returned reads of a part that loads, with a take and an intake read behind it. -/
def failedLoadRead (load : LoadState) : State :=
  { ready with
    dir := { ready.dir with lifecycle := .loading }, load := load,
    path := { ready.path with returned := [⟨⟨.load .mix, .mix, 0, 128⟩, none, 0⟩, ⟨⟨.take 0, .bed, 0, 80⟩, none, 0⟩, ⟨⟨.bedIntake 2, .bed, 160, 80⟩, none, 0⟩] } }

/-- A failed load read drops a take read that no run has there; any other read takes no read with it. -/
theorem test_failed_load_read :
    let s : State := failedLoadRead ⟨.regions, [.mix], []⟩
    failsTheLoad s ⟨.load .mix, .mix, 0, 128⟩ none = true ∧
    (s.withPath { s.path with returned := s.path.returned.drop 1 }).held ⟨.mix, 0⟩ = false ∧
    gives .ownReadDone s (fun t => decide (t.path.returned.map (·.read.purpose) = [.bedIntake 2] ∧ t.dir.lifecycle = .safe)) = true ∧
    gives .ownReadDone (failedLoadRead ⟨.idle, [], []⟩) (fun t => decide (t.path.returned.length = 2)) = true := by decide +kernel

/-- A bed record whose pending profile has a segment count and a band, and the segments of `aProfile`. -/
def pendingRecord (count : Nat) : List Word :=
  List.replicate 50 0 ++ [.ofNat 32 count, 50, 0, 0, .ofNat 32 (450 + 15 * 65536), 1] ++ List.replicate 24 0

def taking (stage : TakeStage) : State := (bedIn .curing 3 [] (some (curingAt 2 .holding 60 0))).setTake 23 stage

theorem test_take_read : profileTest (pendingProfile (pendingRecord 1)) = .none ∧ profileTest (pendingProfile (pendingRecord 0)) = .noProfile ∧
    gives .ownReadDone (returned (.take 23) .bed (some (pendingRecord 1)) (taking .readInFlight))
      (fun t => decide ((t.cureUnit 23).take = .resultInFlight ∧ (t.cureUnit 23).context.map (fun c => (c.segment, c.profile.count)) = some (1, 1))) = true ∧
    gives .ownReadDone (returned (.take 23) .bed (some (pendingRecord 0)) (taking .readInFlight))
      (fun t => decide ((t.cureUnit 23).take = .resultInFlight ∧ (t.bedUnit 23).state = .releasable)) = true ∧
    gives .ownReadDone (returned (.take 23) .bed none (taking .readInFlight))
      (fun t => decide ((t.cureUnit 23).take = .resultInFlight)) = true := by decide +kernel

theorem test_take_result :
    (match form (.takeResult 23) (taking (.formed .taken (pendingWords (pendingRecord 1)))) with
     | (u, some (_, done)) => decide (done = .take 23 ∧ (u.cureUnit 23).context.map (·.phase) = some .moving)
     | _ => false) = true ∧
    (match form (.takeResult 23) (taking (.formed .memory [])) with
     | (u, some (spans, _)) => decide (spans = [recordSpan .bed 23 [(52, 0), (53, .ofCount Code.memory.toNat)]] ∧
         (u.cureUnit 23).context.map (·.ended) = some true ∧ .profileEnd ∈ (u.bedUnit 23).deferred)
     | _ => false) = true := by decide +kernel

def readingCast : State :=
  { bedIn .prepared 3 [] none with freeCount := 29 }.setBedUnit 23 { (bedIn .prepared 3 [] none).bedUnit 23 with
    request := some ⟨.cast, .readInFlight, 3, .none, [], [], [], 0, .empty⟩ }

theorem test_failed_intake_read :
    gives .ownReadDone (returned (.bedIntake 23) .bed none readingCast)
      (fun t => decide (t.freeCount = 32 ∧ ((t.bedUnit 23).request.map (·.result)) = some .memory)) = true ∧
    ready.path.returned = [] ∧ gives .ownReadDone ready (fun t => decide (t = finish ready)) = true := by decide +kernel

def demanding : State :=
  (busy.setSteamBed 1 { busy.steamBed 0 with rating := 400, priority := 0, demand := 200, valve := false }).setBed 2 (busy.bed 2)

theorem test_admission_round :
    gives (.admissionRound true) demanding (fun t => decide (t.steam.rotation = 2 ∧ t.steam.lowFire = true ∧
      ((List.finRange 24).map (fun b => drawOf (demanding.steamBed b).rating (t.steamBed b).granted)).sum ≤ 50)) = true ∧
    gives (.admissionRound false) demanding (fun t => decide (0 < (t.steamBed 1).granted ∧ (t.steamBed 1).valve = true)) = true := by
  decide +kernel

/-- Bed 2, of priority 0, draws the whole budget of 100, and bed 1, of priority 1, is granted nothing. -/
theorem test_grants : 1 ≤ demanding.steam.rotation ∧ demanding.steam.rotation ≤ 24 ∧
    demanding.eligible 0 = true ∧ demanding.eligible 1 = true ∧
    gives (.admissionRound false) demanding (fun t => decide (
      ((List.finRange 24).filter (fun b => demanding.eligible b)).map (fun b => ((demanding.steamBed b).rating,
        (demanding.steamBed b).demand, (t.steamBed b).granted, (t.steamBed b).starved)) = [(40, 100, 0, 1), (400, 200, 50, 1)])) = true := by
  decide +kernel

theorem test_valve_step :
    gives .valveStep { busy with steam := { busy.steam with valveStep := 99 } } (fun t => decide ((t.steamBed 0).valve = false)) = true ∧
    gives .valveStep { busy with steam := { busy.steam with valveStep := 98 } } (fun t => decide ((t.steamBed 0).valve = true)) = true ∧
    gives .valveStep { busy with steam := { busy.steam with valveStep := 199 } } (fun t => decide (t.steam.valveStep = 199)) = true := by
  decide +kernel

/-! ### Piece stock -/

def stockPiece (slot : Nat) (st : PieceState) : Piece := { freePiece with state := st, mix := 16, slot := slot, zone := 20, bed := 24 }

/-- `ready` with piece 32 in a state; IN_STOCK it lies alone on slot 4. -/
def withPiece (st : PieceState) : State :=
  let slot := if st = .inStock then 4 else 0
  let s := if st = .inBed then bedIn .detensioned 3 [32] none else ready
  (s.setPiece 32 { stockPiece slot st with position := 1 }).setSlot 4 ⟨20, 3, true, if st = .inStock then [32] else [], []⟩

theorem test_scrap : (withPiece .inStock).Calm ∧ (withPiece .inStock).WordLies .piece 31 9 2781 ∧
    gives (.scrap 32) (withPiece .inStock)
      (fun t => decide ((t.piece? 32).map (·.state) = some .freeing ∧ (t.slot? 4).map (·.stack) = some [])) = true ∧
    gives (.scrap 32) (withPiece .inBed)
      (fun t => decide ((t.piece? 32).map (·.state) = some .freeing ∧ (t.bedUnit 23).state = .empty)) = true := by decide +kernel

theorem test_piece_result_completes :
    let s (result : Code) : State := answeredGroup (.pieceResult 32)
      ((ready.setPiece 32 { stockPiece 0 .freeing with request := some ⟨.free, .resultInFlight, result⟩ }).setMix 16
        { ready.mix 16 with useCount := 1 })
    gives .commitGroupComplete (s .accepted) (fun t => decide ((t.piece? 32).map (fun p => (p.state, p.request)) = some (.free, none) ∧
      t.freeCount = 33 ∧ (t.mix 16).useCount = 0 ∧ t.notices = ready.notices)) = true ∧
    gives .commitGroupComplete (s .memory) (fun t => decide ((t.piece? 32).map (fun p => (p.state, p.request)) = some (.freeing, none) ∧
      t.freeCount = 32 ∧ (t.notices.writeList.map (·.kind)) = [.pieceResult])) = true := by decide +kernel

/-- Slot 4 holds pieces 31 and 32, with a claim that picks 31 or one that picks 32. -/
def claimedSlot (piece : Nat) : State :=
  ((withPiece .inStock).setPiece 31 (stockPiece 4 .inStock)).setSlot 4 ⟨20, 3, true, [31, 32], [⟨7, .pick, piece⟩]⟩

/-- The claim test (R120): a pick of a piece that is not on top, a place on a full stack, and one on a shorter piece fail. -/
theorem test_claim_test :
    claimTest id 2 ⟨[5, 7], 2⟩ [⟨1, .pick, 7⟩] = .fails ⟨1, .pick, 7⟩ ∧ claimTest id 2 ⟨[], 0⟩ [⟨1, .pick, 7⟩] = .fails ⟨1, .pick, 7⟩ ∧
    claimTest id 2 ⟨[5, 7], 2⟩ [⟨1, .place, 4⟩] = .fails ⟨1, .place, 4⟩ ∧ claimTest id 3 ⟨[5, 7], 2⟩ [⟨1, .place, 6⟩] = .fails ⟨1, .place, 6⟩ ∧
    claimTest id 3 ⟨[5, 7], 2⟩ [⟨1, .place, 5⟩, ⟨2, .pick, 5⟩] = .passes ⟨[5, 7], 3⟩ := by decide +kernel

theorem test_scrap_under_claims :
    (claimedSlot 31).Calm ∧ ((claimedSlot 31).testSlot ⟨20, 3, true, [31, 32], [⟨7, .pick, 31⟩]⟩ [31]).passed = true ∧
    gives (.scrap 32) (claimedSlot 31) (fun t => decide (t.slot? 4 = some ⟨20, 3, true, [31], [⟨7, .pick, 31⟩]⟩)) = true ∧
    gives (.scrap 32) (claimedSlot 32) (fun t => decide (t.path.refusal.reason = .state ∧ t.mem = [])) = true ∧
    gives (.scrap 31) (claimedSlot 31) (fun t => decide (t.path.refusal.reason = .state ∧ t.mem = [])) = true ∧
    takenOff 3 [3, 5, 3] = [3, 5] ∧ takenOff 3 [3, 5] = [5] := by decide +kernel

/-- Slot 4, open for one piece, holds two: its list fails the claim test. Slot 3 holds a claim of move 9. -/
def overfull : State :=
  (((withPiece .inStock).setPiece 31 (stockPiece 4 .inStock)).setSlot 4 ⟨20, 1, true, [31, 32], [⟨7, .place, 30⟩]⟩).setSlot 3
    ⟨20, 3, true, [], [⟨9, .place, 30⟩]⟩

/-- A release tests the lists it has changed, and leaves a failing list that it has not changed alone (R125). -/
theorem test_release_tests_changed_lists :
    (match overfull.slot? 4 with | some x => (overfull.testSlot x x.stack).passed | none => true) = false ∧
    overfull.stock.slots.all (fun x =>
      let y : Slot := { x with claims := x.claims.filter (fun c => decide (c.move ≠ 9)) }
      decide (y = x) || (overfull.testSlot y x.stack).passed) = true ∧
    overfull.claimedSlots 9 = [3] ∧ (releaseMove 9 30 overfull).2 = [] ∧
    (releaseMove 9 30 overfull).1.slot? 3 = some ⟨20, 3, true, [], []⟩ ∧
    (releaseMove 9 30 overfull).1.slot? 4 = overfull.slot? 4 ∧
    (releaseMove 9 30 (overfull.setSlot 4 ⟨20, 1, true, [31, 32], [⟨9, .pick, 32⟩, ⟨7, .place, 30⟩]⟩)).2 = [7] := by decide +kernel

/-- Piece 32 on top is picked by move 9, piece 31 under it by move 7: without move 9 the list fails, and move 7, which is
QUEUED, goes too (R125). -/
def stacked : State :=
  ((((withPiece .inStock).setPiece 31 { stockPiece 4 .inStock with claim := 7 }).setPiece 32 { stockPiece 4 .inStock with claim := 9 }).setSlot 4
    ⟨20, 3, true, [31, 32], [⟨9, .pick, 32⟩, ⟨7, .pick, 31⟩]⟩).putMove 3 { Move.reset with number := 7, state := .queued, piece := 31 }

theorem test_release_of_a_failing_list :
    (releaseMove 9 32 stacked).2 = [7] ∧ (releaseMove 9 32 stacked).1.slot? 4 = some ⟨20, 3, true, [31, 32], []⟩ ∧
    stacked.testSlot ⟨20, 3, true, [31, 32], [⟨7, .pick, 31⟩]⟩ [31, 32] = .fails ⟨7, .pick, 31⟩ ∧
    ((releaseMove 9 32 stacked).1.piece? 31).map (·.claim) = some 0 ∧ stacked.entryOf 7 = some 3 ∧
    ((endReleased [7] true stacked).move 3).endReason = .replanned := by decide +kernel

theorem test_free : gives (.free 32) (withPiece .dispatched) (fun t => decide ((t.piece? 32).map (·.state) = some .freeing)) = true ∧
    gives (.free 32) (withPiece .inStock) (fun t => decide (t.path.refusal.reason = .state ∧ t.mem = [])) = true := by decide +kernel

def warmYard : State :=
  { withPiece .inStock with roster := [{ probe 1 29 .yard .online with air := 150, readingTime := 990 }] }

theorem test_yard_maturity_step : warmYard.yardTemperature = some 150 ∧ (withPiece .inStock).yardTemperature = none ∧
    gives .yardMaturityStep (warmYard.setPiece 32 { stockPiece 4 .inStock with maturity := 2800 })
      (fun t => decide ((t.piece? 32).map (fun p => (p.maturity, p.ready)) = some (3000, true))) = true ∧
    gives .yardMaturityStep (withPiece .inStock) (fun t => decide ((t.piece? 32).map (·.maturity) = some 0)) = true := by decide +kernel

/-! ### Runway and permits -/

/-- `busy` with the index mark of crane 0 seen. -/
def marked (homed homing : Bool) (count : Int) : State :=
  busy.setCrane 0 { busy.crane 0 with mon := { busy.mon 0 with
    indexSeen := true, homed := homed, homingArmed := homing, count := count, posZone := if homed then some 0 else none } }

theorem test_count_edge :
    gives (.countEdge 0 .east) busy (fun t => decide ((t.mon 0).count = 3201 ∧ (t.mon 0).homed = true)) = true ∧
    gives (.countEdge 0 .west) (busy.setCrane 0 { busy.crane 0 with mon := { busy.mon 0 with count := -8388608, homed := false, posZone := none } })
      (fun t => decide ((t.mon 0).count = 8388607)) = true ∧
    gives (.countEdge 0 .east) (marked false true 77) (fun t => decide ((t.mon 0).count = 0 ∧ (t.mon 0).homed = true)) = true ∧
    gives (.countEdge 0 .east) (marked true false 7) (fun t => decide ((t.mon 0).homed = true)) = true ∧
    gives (.countEdge 0 .east) (marked true false 8)
      (fun t => decide ((t.mon 0).homed = false ∧ (t.mon 0).armed = false ∧ .encoder ∈ (t.mon 0).latched)) = true := by decide +kernel

theorem test_index_marker :
    gives (.indexMarker 0 none) busy (fun t => decide ((t.mon 0).indexSeen = true ∧ (t.mon 0).count = 3200)) = true ∧
    gives (.indexMarker 0 (some .west)) (marked false true 77) (fun t => decide ((t.mon 0).homed = true ∧ (t.mon 0).count = 0)) = true := by
  decide +kernel

theorem test_illegal_transition :
    gives (.illegalTransition 0) busy (fun t => decide ((t.mon 0).count = 3200 ∧ (t.mon 0).homed = false ∧ (t.mon 0).armed = false)) = true ∧
    gives (.illegalTransition 0) ready (fun t => decide ((t.mon 0).chanA = true ∧ (t.mon 0).armed = false)) = true := by decide +kernel

def fedBack (p : ByPermit Bool) (off : Nat) : State :=
  busy.setCrane 0 { busy.crane 0 with mon := { busy.mon 0 with feedback := p, offTimers := .all off } }

theorem test_feedback_change :
    gives (.feedbackChange 0 .travelWest true) (fedBack ⟨false, true, false, false⟩ 0)
      (fun t => decide ((t.mon 0).armed = false ∧ .conflict ∈ (t.mon 0).latched)) = true ∧
    gives (.feedbackChange 0 .hoistLower true) (fedBack (.all false) 2001)
      (fun t => decide ((t.mon 0).armed = false ∧ .disobey ∈ (t.mon 0).latched)) = true ∧
    gives (.feedbackChange 0 .hoistLower true) (fedBack (.all false) 2000) (fun t => (t.mon 0).armed) = true := by decide +kernel

theorem test_off_timer_expiry :
    gives (.offTimerExpiry 0 .hoistRaise) (fedBack ⟨false, false, false, true⟩ 2000)
      (fun t => decide (.disobey ∈ (t.mon 0).latched)) = true ∧
    gives (.offTimerExpiry 0 .hoistRaise) busy (fun t => (t.mon 0).armed) = true := by decide +kernel

/-- The off timer holds the time since its permit last turned off, whether the permit is on or off (R131, R142). -/
theorem test_off_timer_counts : permitOf (busy.mon 0).permits .travelEast = true ∧
    (match step { busy with pending := [] } with
      | .next t => decide (permitOf (t.mon 0).offTimers .travelEast = 1 ∧ permitOf (t.mon 0).offTimers .travelWest = 1)
      | _ => false) = true := by decide +kernel

/-- A count change in LOADING with the regions known, before the cranes are built, is refreshed (R132, R47). -/
theorem test_count_edge_in_loading :
    gives (.countEdge 1 .west) { ready with dir := { ready.dir with lifecycle := .loading }, cranesLoaded := false }
      (fun t => decide (t.path.current.map (·.item) = some (.refresh ⟨.crane, 1, [(7, .ofSigned (-1))]⟩))) = true ∧
    gives (.countEdge 1 .west) { ready with dir := { ready.dir with lifecycle := .safe }, cranesLoaded := false }
      (fun t => decide (t.path.current = none ∧ t.path.queue = [] ∧ (t.mon 1).count = -1)) = true := by decide +kernel

theorem test_stops :
    gives (.cabStop 0 true) busy (fun t => decide ((t.mon 0).armed = false ∧ .stop ∈ (t.mon 0).latched ∧ (t.mon 1).armed = true)) = true ∧
    gives (.cabStop 1 false) busy (fun t => (t.mon 1).armed) = true ∧
    gives (.yardStop true) busy (fun t => decide ((t.mon 0).armed = false ∧ (t.mon 1).armed = false ∧
      permitOf (t.mon 0).permits .travelEast = false)) = true ∧
    gives (.yardStop false) busy (fun t => !t.yardStop) = true := by decide +kernel

def blocked : State := busy.setCrane 0 { busy.crane 0 with mon := { busy.mon 0 with permits := .all false, blockTimers := .all 1 } }

theorem test_block_timer_expiry : (blocked.permitsAllowed 0 && blocked.permitWanted 0 .travelEast) = true ∧
    gives (.blockTimerExpiry 0 .travelEast) blocked (fun t => permitOf (t.mon 0).permits .travelEast) = true ∧
    (blocked.permitsAllowed 0 && blocked.permitWanted 0 .hoistLower) = false ∧
    gives (.blockTimerExpiry 0 .hoistLower) blocked (fun t => !permitOf (t.mon 0).permits .hoistLower) = true := by decide +kernel

/-- A travel permit leads into the span; with an empty span the outward one alone is wanted (R141). -/
theorem test_wanted_permits :
    blocked.permitWanted 0 .travelEast = true ∧ blocked.permitWanted 0 .travelWest = false ∧ blocked.permitWanted 0 .hoistRaise = true ∧
    ready.permitWanted 0 .travelWest = true ∧ ready.permitWanted 0 .travelEast = false ∧ ready.permitWanted 1 .travelEast = true ∧
    permitOf ((evalPermits 0 busy).mon 0).permits .travelEast = true ∧ busy.permitsAllowed 0 = true ∧ ready.permitsAllowed 0 = false := by
  decide +kernel

theorem test_blocked_permit : permitOf (blocked.mon 0).permits .hoistRaise = false ∧ permitOf (blocked.mon 0).blockTimers .hoistRaise = 1 ∧
    gives (.blockTimerExpiry 0 .travelEast) blocked (fun t => decide (permitOf (t.mon 0).permits .hoistRaise = false ∧
      permitOf (t.mon 0).blockTimers .travelEast = 0)) = true := by decide +kernel

theorem test_turn_off : permitOf (busy.mon 0).permits .travelEast = true ∧
    gives (.cabStop 0 true) busy (fun t => decide (permitOf (t.mon 0).blockTimers .travelWest = 2000)) = true := by decide +kernel

def alarmed (st : AlarmState) : State := ready.setCrane 1 { ready.crane 1 with alarm := ⟨st, 1, 900⟩ }

theorem test_arm : (alarmed .acked).Calm ∧ (alarmed .acked).WordLies .crane 1 4 124 ∧
    gives (.arm 1) (alarmed .acked) (fun t => (t.mon 1).armed) = true ∧
    gives (.arm 1) ready (fun t => (t.mon 1).armed) = true ∧
    gives (.arm 1) (alarmed .seen) (fun t => decide ((t.mon 1).armed = false ∧ t.path.refusal.reason = .faultLatched)) = true ∧
    gives (.arm 1) { ready with yardStop := true } (fun t => decide (t.path.refusal.reason = .stopActive)) = true := by decide +kernel

/-! ### Notices and alarms -/

def noticed (tail written : Nat) (waiting : Nat) : State :=
  { ready with notices := { ready.notices with
      tail := tail, assignedHead := written, writtenHead := written,
      waiting := (List.range waiting).map (fun i => ⟨.bedState, .bed, i, 0, 900⟩) } }

theorem test_notice_tail : (noticed 3 2 2).Calm ∧ (noticed 3 2 2).WordLies .directory 0 25 25 ∧
    gives (.noticeTail 2) (noticed 3 2 2) (fun t => decide (t.notices.tail = 2 ∧ t.notices.waiting = [])) = true ∧
    gives (.noticeTail 4) (noticed 3 2 2) (fun t => decide (t.notices.tail = 4 ∧ t.notices.waiting.length = 1)) = true ∧
    gives (.noticeTail 3) (noticed 3 2 2) (fun t => decide (t.notices = (noticed 3 2 2).notices ∧ t.host.replies = [⟨.done, []⟩])) = true ∧
    gives (.noticeTail 16) (noticed 3 2 2) (fun t => decide (t.notices.tail = 3 ∧ t.path.refusal.reason = .tail)) = true ∧
    gives (.noticeTail 6) (noticed 3 5 2) (fun t => decide (t.notices.tail = 3 ∧ t.path.refusal.reason = .tail)) = true := by decide +kernel

def loopAlarm (st : AlarmState) (conditions : Word) : State := ready.setLoop 3 { ready.loop 3 with alarm := ⟨st, conditions, 900⟩ }

theorem test_ack : (loopAlarm .seen 1).Calm ∧ (loopAlarm .seen 1).WordLies .directory 0 56 56 ∧
    gives (.ack (.loop 3)) (loopAlarm .seen 1) (fun t => decide ((t.loop 3).alarm.state = .acked)) = true ∧
    gives (.ack (.loop 3)) (loopAlarm .seen 0) (fun t => decide ((t.loop 3).alarm.state = .clear)) = true ∧
    gives (.ack (.loop 3)) (loopAlarm .raised 1) (fun t => decide (t.path.refusal.reason = .notSeen)) = true ∧
    gives (.ack (.bed 0)) ready (fun t => decide (t.path.refusal.reason = .state)) = true ∧
    ready.WordLies .bed 0 73 273 ∧ ready.WordLies .crane 1 17 137 ∧ ready.WordLies .roster 3 13 2961 := by decide +kernel

/-- A host READ of a bed's alarm state word, issued at memory, while the stored word is RAISED. -/
def alarmRead (st : AlarmState) : State :=
  { ready.setBed 0 { ready.bed 0 with alarm := ⟨st, 1, 900⟩ } with
    mem := setWord [] 270 1, path := { ready.path with port := .host }, pending := [.memoryResponse .done],
    host := ⟨some ⟨⟨269, .read 3⟩, .issued, false, [], [], false, false⟩, [], []⟩ }

theorem test_only_a_read_makes_seen : ((alarmRead .raised).alarm (.bed 0)).state ≠ .seen ∧
    locate (alarmRead .raised).path.windows 270 = some ⟨.bed, 0, 70⟩ ∧ alarmAt ⟨.bed, 0, 70⟩ = some (.bed 0, 0) ∧
    (match step (alarmRead .raised) with | .next t => decide ((t.alarm (.bed 0)).state = .seen) | _ => false) = true ∧
    (match step (alarmRead .acked) with | .next t => decide ((t.alarm (.bed 0)).state = .acked) | _ => false) = true := by decide +kernel

/-- A READ taken during LOADING and answered after it hands no read event (R36; log entry 57). -/
theorem test_read_taken_in_loading :
    gives .takeTransfer { waiting ⟨269, .read 3⟩ with dir := { ready.dir with lifecycle := .loading } }
      (fun t => decide (t.host.up.map (·.takenLoading) = some true)) = true ∧
    gives (.memoryResponse .done)
      { alarmRead .raised with host := ⟨some ⟨⟨269, .read 3⟩, .issued, false, [], [], false, true⟩, [], []⟩ }
      (fun t => decide ((t.alarm (.bed 0)).state = .raised ∧ t.host.replies.length = 1)) = true := by decide +kernel

theorem test_alarm_conditions :
    ((conditionArises (.crane 1) 31 (alarmed .acked)).crane 1).alarm.state = .raised ∧
    ((conditionArises (.crane 1) 1 (alarmed .raised)).crane 1).alarm.raiseTime = 900 ∧
    conditionArises (.crane 1) 0 (alarmed .acked) = alarmed .acked ∧
    ((readEvent (.crane 1) 1 (alarmed .raised)).crane 1).alarm.state = .seen ∧
    (ready.roster[3]?).isSome = true ∧ ((conditionArises (.probe 3) 0 ready).alarm (.probe 3)) = ⟨.raised, 1, 1000⟩ ∧
    (conditionArises (.probe 3) 0 ready).notices.writeList = [⟨.alarmRaised, .probe, 3, 0, 1000⟩] ∧
    (conditionArises (.bed 23) 2 ready).notices.writeList = [⟨.alarmRaised, .bed, 24, 2, 1000⟩] ∧
    ((conditionArises (.loop 3) 0 (loopAlarm .seen 2)).alarm (.loop 3)) = ⟨.raised, 3, 1000⟩ := by decide +kernel

/-! ### Crane moves -/

/-- `busy` with move 7 of crane 0 in table entry 15: it lifts piece 32 in zone 4 and places it in zone 3. -/
def moving (st : MoveState) (m : Move) : State :=
  let s := withPiece (if st ∈ [.hooked, .toPlace, .atPlace, .landed, .suspended] then .onHook else .inStock)
  let p : Piece := { stockPiece (if st ∈ [.hooked, .toPlace, .atPlace, .landed, .suspended] then 0 else 4)
    (if st ∈ [.hooked, .toPlace, .atPlace, .landed, .suspended] then .onHook else .inStock) with claim := 7, zone := 4 }
  let set := (({ s with cranes := #v[crane0, crane1] }).setPiece 32 p).setSlot 3
    ⟨3, 3, true, [], [⟨7, .place, 32⟩]⟩
  (set.setSlot 4 ⟨4, 3, true, if p.slot = 4 then [32] else [], if p.slot = 4 then [⟨7, .pick, 32⟩] else []⟩).putMove 15
    { m with
      number := 7, crane := 0, piece := 32, dest := 3, waitLimit := 120, travelLimit := 180, source := 4,
      pickZone := some 4, placeZone := 3, state := st, accepted := true }

def restack : Move := { Move.reset with kind := .restack }

/-- Crane 0 of a state stands in a zone. -/
def atZone (z : Int) (s : State) : State :=
  s.setCrane 0 { s.crane 0 with
    mon := { s.mon 0 with count := 1600 * z, posZone := some z }, cab := { s.cab 0 with posZone := some z } }

/-- Crane 0 of a state has no span. -/
def spanless (s : State) : State :=
  s.setCrane 0 { s.crane 0 with mon := { s.mon 0 with span := none, posZone := none, homed := false }, cab := { s.cab 0 with span := none } }

def rep (zone piece load : Nat) : CabReport := ⟨7, BitVec.ofNat 8 zone, BitVec.ofNat 16 piece, BitVec.ofNat 16 load⟩

theorem test_intake : ready.WordLies .moveRing 0 7 3207 ∧ ready.WordLies .moveRing 7 7 3263 ∧ ready.moves.intake = none ∧
    gives (.intake 0) ready (fun t => decide (t.held ⟨.moveRing, 0⟩ = true ∧ t.moves.intake.isSome = true)) = true ∧
    gives (.intake 7) ready (fun t => decide (t.path.refusal.reason = .order ∧ t.mem = [])) = true := by decide +kernel

def intakeRead (order : List Word) : State :=
  returned (.moveIntake 0) .moveRing (some order)
    { withPiece .inStock with moves := { ready.moves with intake := some ⟨0, .readInFlight, .none, 0, none⟩ } }

theorem test_order_examined :
    (intakeRead [7, 1, 0, 32, 3, 120, 180]).orderVerdict (Machine.orderOf [7, 1, 0, 32, 3, 120, 180]) = .none ∧
    MoveKind.ofNat? (Machine.orderOf [7, 1, 0, 32, 3, 120, 180]).kind = some .restack ∧
    (intakeRead [7, 1, 0, 32, 3, 120, 180]).freeEntry = some 0 ∧
    gives .ownReadDone (intakeRead [7, 1, 0, 32, 3, 120, 180])
      (fun t => decide ((t.move 0).number = 7 ∧ (t.move 0).state = .queued ∧ (t.cab 0).queue = [7])) = true ∧
    (intakeRead [7, 1, 0, 32, 3, 0, 180]).orderVerdict (Machine.orderOf [7, 1, 0, 32, 3, 0, 180]) = .badOrder ∧
    gives .ownReadDone (intakeRead [7, 1, 0, 32, 3, 0, 180])
      (fun t => decide ((t.move 0).state = .empty ∧ (t.moves.intake.map (·.result)) = some .badOrder)) = true := by decide +kernel

theorem test_order_claims :
    gives .ownReadDone (intakeRead [7, 1, 0, 32, 3, 120, 180]) (fun t => decide ((t.piece? 32).map (·.claim) = some 7 ∧
      (t.slot? 4).map (·.claims) = some [⟨7, .pick, 32⟩] ∧ (t.slot? 3).map (·.claims) = some [⟨7, .place, 32⟩])) = true := by
  decide +kernel

theorem test_intake_busy :
    let s : State := { ready with moves := { ready.moves with intake := some ⟨7, .readInFlight, .none, 0, none⟩ } }
    s.Calm ∧ gives (.intake 7) s (fun t => decide (t.path.refusal = ⟨3263, .busy, 1000⟩ ∧ t.mem = [])) = true ∧
    gives (.intake 0) s (fun t => decide (t.path.refusal = ⟨3207, .order, 1000⟩ ∧ t.mem = [])) = true := by decide +kernel

theorem test_order_checks :
    let s := intakeRead []
    let verdict (record : List Word) : Code := s.orderVerdict (Machine.orderOf record)
    verdict [7, 4, 0, 32, 3, 120, 180] = .badOrder ∧ verdict [65536, 1, 0, 32, 3, 120, 180] = .badOrder ∧
    verdict [7, 1, 3, 32, 3, 120, 180] = .badCrane ∧ verdict [7, 3, 2, 32, 3, 120, 180] = .badCrane ∧
    verdict [7, 3, 0, 32, 32, 120, 180] = .badDest ∧ verdict [7, 3, 0, 32, 31, 120, 180] = .none ∧
    (s.putMove 15 { Move.reset with number := 7, state := .queued }).orderVerdict (Machine.orderOf [7, 3, 0, 0, 3, 1, 10]) = .duplicate ∧
    (setCab 0 { s.cab 0 with queue := [1, 2, 3, 4, 5, 6, 8, 9] } s).orderVerdict (Machine.orderOf [7, 3, 0, 0, 3, 3600, 900]) = .queueFull ∧
    (forMoves (fun i s => s.putMove i { Move.reset with number := 100 + i.val, state := .queued }) s).orderVerdict
      (Machine.orderOf [7, 3, 0, 0, 3, 120, 180]) = .tableFull ∧
    s.chooseCrane (Machine.orderOf [7, 1, 2, 32, 3, 120, 180]) = 0 := by decide +kernel

/-- `withPiece` with slot 3 filled, closed or of a shorter class of piece, and its maximum height. -/
def target (isOpen : Bool) (height : Nat) (stack : List Nat) : State :=
  ((withPiece .inStock).setPiece 32 { stockPiece 4 .inStock with length := 2 }).setSlot 3 ⟨20, height, isOpen, stack, []⟩

theorem test_claim_checks :
    PlannedIs (target true 3 [31]) ⟨20, 3, true, [31], []⟩ [31] ∧
    (target true 3 []).claimVerdict .restack 32 3 = .none ∧ (target true 3 []).claimVerdict .restack 32 4 = .badDest ∧
    (target true 3 []).claimVerdict .restack 32 5 = .badDest ∧ (target true 3 []).claimVerdict .restack 31 3 = .noPiece ∧
    (target true 3 []).claimVerdict .restack 33 3 = .noPiece ∧ (target false 3 []).claimVerdict .restack 32 3 = .slotClosed ∧
    (target true 1 [31]).claimVerdict .restack 32 3 = .noRoom ∧ (target true 3 [31]).claimVerdict .restack 32 3 = .length ∧
    (target true 3 []).claimVerdict .dispatch 32 3 = .badDest ∧ (target true 3 []).claimVerdict .dispatch 32 255 = .notReady ∧
    ((target true 3 []).setPiece 32 { stockPiece 4 .inStock with hold := 1 }).claimVerdict .dispatch 32 255 = .held ∧
    ((target true 3 []).setPiece 32 { stockPiece 4 .inStock with claim := 9 }).claimVerdict .dispatch 32 255 = .pieceBusy ∧
    ((target true 3 []).setSlot 4 ⟨20, 3, true, [32, 31], []⟩).claimVerdict .dispatch 32 255 = .notOnTop ∧
    (withPiece .inBed).claimVerdict .lift 32 3 = .notLiftable := by
  refine ⟨⟨1, by decide +kernel⟩, ?_⟩
  decide +kernel

theorem test_move_start :
    ActiveIs (moving .queued restack) 0 15 ∧ (moving .queued restack).craneServes 0 = true ∧
    (moving .queued restack).startCondition 7 = true ∧
    gives (.moveStart 0) (moving .queued restack) (fun t => decide ((t.move 15).state = .toPick ∧ (t.mon 0).span.isSome = true)) = true := by
  decide +kernel

theorem test_move_start_waits :
    ActiveIs (spanless (moving .queued restack)) 0 15 ∧ (spanless (moving .queued restack)).craneServes 0 = true ∧
    gives (.moveStart 0) (spanless (moving .queued restack))
      (fun t => decide ((t.move 15).state = .reserving ∧ (t.move 15).waitTimer = some 0)) = true := by decide +kernel

/-! ### Grants -/

/-- A request that waits asks for its move's targets, checked. -/
theorem requestsItsTargets {s : State} {c : Fin 2}
    (h : (match (s.mon c).request, s.activeMove c with
      | some wanted, some j => decide ((s.move j).state = .reserving → s.targetsOf (s.move j) = wanted)
      | _, _ => true) = true) : RequestsItsTargets s c := by
  intro wanted j hw hj hr
  rw [hw, hj] at h
  exact of_decide_eq_true h hr

/-- A crane that stands in a zone with a span, its queue of one number, and a request. -/
def craneAt (z : Nat) (span : ZoneRun) (number : Nat) (phase : MoveState) (request : Option (List Nat)) : Crane :=
  { crane0 with
    mon := { crane0.mon with count := 1600 * z, posZone := some z, span := some span, phase := .move phase, permits := .all false,
                             targets := request.getD [], request := request },
    cab := { crane0.cab with posZone := some z, span := some span, queue := [number] } }

/-- Crane 0 stands in zone 2 with the span 2 to 4 and a suspended PARK move 7; crane 1 stands in zone 8, and its PARK move 9
waits for zone 5. -/
def sharing (park : Nat) : State :=
  { ((ready.putMove 15 { Move.reset with number := 7, crane := 0, kind := .park, placeZone := park, state := .suspended, accepted := true }).putMove 14
      { Move.reset with number := 9, crane := 1, kind := .park, placeZone := 5, state := .reserving, accepted := true }) with
    cranes := #v[craneAt 2 ⟨2, 4⟩ 7 .suspended none, craneAt 8 ⟨8, 8⟩ 9 .reserving (some [5])] }

theorem test_hyps_grant : RequestsItsTargets (sharing 3) 1 ∧ RequestsItsTargets (moving .queued restack) 1 :=
  ⟨requestsItsTargets (by decide +kernel), requestsItsTargets (by decide +kernel)⟩

/-- The span 2 to 4 shrinks to 2 to 3, which lets crane 1 have 5 to 8, and crane 0 is granted beside it. -/
theorem test_grant_behind_the_other : ActiveIs (sharing 3) 0 15 ∧ (sharing 3).craneServes 0 = true ∧
    otherExtent (sharing 3) 0 [3] = some ⟨5, 8⟩ ∧ grantedAtOnce (sharing 3) 0 [3] = true ∧
    gives (.moveResume 0) (sharing 3) (fun t => decide ((t.move 15).state = .toPark ∧ (t.mon 0).span = some ⟨2, 3⟩ ∧
      (t.move 14).state = .toPark ∧ (t.mon 1).span = some ⟨5, 8⟩)) = true := by decide +kernel

/-- With zone 4 the span does not shrink, and crane 1 goes on waiting; with zone 6 crane 1 is served first, and crane 0 waits. -/
theorem test_grant_at_the_edges : grantedAtOnce (sharing 4) 0 [4] = true ∧
    gives (.moveResume 0) (sharing 4) (fun t => decide ((t.move 15).state = .toPark ∧ (t.mon 0).span = some ⟨2, 4⟩ ∧
      (t.move 14).state = .reserving)) = true ∧
    grantedAtOnce (sharing 6) 0 [6] = false ∧
    gives (.moveResume 0) (sharing 6) (fun t => decide ((t.move 15).state = .reserving ∧ (t.mon 0).request = some [6] ∧
      (t.mon 0).span = some ⟨2, 2⟩ ∧ (t.mon 1).span = some ⟨5, 8⟩)) = true := by decide +kernel

/-- Crane 0 is one edge west of zone 5 with its span up to a zone, and waits for another; crane 1 waits in zone 8 for its own. -/
def facing (spanEnd wanted others : Nat) : State :=
  let s : State :=
    { ((ready.putMove 15 { Move.reset with number := 7, crane := 0, kind := .park, placeZone := wanted, state := .reserving, accepted := true }).putMove 14
        { Move.reset with number := 9, crane := 1, kind := .park, placeZone := others, state := .reserving, accepted := true }) with
      cranes := #v[craneAt 4 ⟨4, spanEnd⟩ 7 .reserving (some [wanted]), craneAt 8 ⟨8, 8⟩ 9 .reserving (some [others])] }
  s.setCrane 0 { s.crane 0 with mon := { s.mon 0 with count := 1600 * 5 - 801 } }

theorem test_hyps_two_requests : ((facing 5 6 8).mon 0).indexSeen = false ∧ ((facing 5 6 8).mon 0).homed = true ∧
    (wrap24 (((facing 5 6 8).mon 0).count + 1) - ((facing 5 6 8).mon 0).origin) / (((facing 5 6 8).mon 0).zoneWidth : Int) = 5 ∧
    ((facing 5 6 8).mon 0).posZone ≠ some 5 ∧ 5 < (facing 5 6 8).dir.zones ∧ (facing 5 6 8).inSpan 0 5 = true ∧
    (facing 5 6 8).inSpan 1 5 = false ∧ ActiveIs (facing 5 6 8) 0 15 ∧ ActiveIs (facing 5 6 8) 1 14 ∧
    (facing 5 6 8).targetsOf ((facing 5 6 8).move 15) = [6] ∧ (facing 5 6 8).targetsOf ((facing 5 6 8).move 14) = [8] := by decide +kernel

/-- Both are served; only the crane's own; neither. -/
theorem test_two_requests :
    gives (.countEdge 0 .east) (facing 5 6 8) (fun t => decide ((t.mon 0).span = some ⟨5, 6⟩ ∧ (t.move 15).state = .toPark ∧
      (t.mon 1).span = some ⟨8, 8⟩ ∧ (t.move 14).state = .toPark)) = true ∧
    gives (.countEdge 0 .east) (facing 5 6 7) (fun t => decide ((t.mon 0).span = some ⟨5, 6⟩ ∧ (t.move 15).state = .toPark ∧
      (t.mon 1).span = some ⟨8, 8⟩ ∧ (t.move 14).state = .reserving)) = true ∧
    gives (.countEdge 0 .east) (facing 5 9 6) (fun t => decide ((t.mon 0).span = some ⟨5, 5⟩ ∧ (t.mon 0).request = some [9] ∧
      (t.mon 1).request = some [6] ∧ (t.notices.writeList.map (·.kind)) = [])) = true := by decide +kernel

/-- Crane 0 slides out of its span into the zone that crane 1 waits for: the runway is blocked at that zone change, before
the OVERRUN test suspends the move (R135, R144, R168). -/
theorem test_block_before_the_overrun : ((facing 4 9 5).cab 1).posZone = some 8 ∧ ((facing 4 9 5).cab 0).blockedMark = false ∧
    ((facing 4 9 5).cab 1).blockedMark = false ∧ ActiveIs (facing 4 9 5) 0 15 ∧ ActiveIs (facing 4 9 5) 1 14 ∧
    gives (.countEdge 0 .east) (facing 4 9 5) (fun t => decide ((t.move 15).state = .suspended ∧ (t.mon 0).span = some ⟨5, 5⟩ ∧
      .overrun ∈ (t.mon 0).latched ∧
      (t.notices.writeList.head?.map (fun n => (n.kind, n.detail))) = some (.runwayBlocked, detail2 7 9))) = true := by decide +kernel

def dispatching (hold : Word) : State :=
  let s := moving .queued { Move.reset with kind := .dispatch }
  (s.putMove 15 { s.move 15 with dest := 255, placeZone := 30 }).setPiece 32 { stockPiece 4 .inStock with claim := 7, zone := 4, hold := hold }

theorem test_move_start_held : ActiveIs (dispatching 1) 0 15 ∧ (dispatching 1).craneServes 0 = true ∧
    (dispatching 1).startCondition 7 = true ∧
    gives (.moveStart 0) (dispatching 1) (fun t => decide (EndedAborted (dispatching 1) t 15 .pieceHeld)) = true := by decide +kernel

theorem test_move_resume : ActiveIs (moving .suspended restack) 0 15 ∧ (moving .suspended restack).craneServes 0 = true ∧
    gives (.moveResume 0) (moving .suspended restack)
      (fun t => decide ((t.move 15).state = .toPlace ∧ (t.mon 0).span.isSome = true)) = true ∧
    gives (.moveResume 0) (spanless (moving .suspended restack))
      (fun t => decide ((t.move 15).state = .reserving ∧ (t.move 15).resume = some .toPlace ∧ (t.move 15).waitTimer = none)) = true := by
  decide +kernel

/-- A suspended DISPATCH without load, of a piece with a hold or none. -/
def suspendedDispatch (hold : Word) : State :=
  (dispatching hold).putMove 15 { (dispatching hold).move 15 with state := .suspended, remembered := some .toPick }

theorem test_move_resume_held : ActiveIs (suspendedDispatch 1) 0 15 ∧ (suspendedDispatch 1).craneServes 0 = true ∧
    (suspendedDispatch 1).isLoaded ((suspendedDispatch 1).move 15) = false ∧
    gives (.moveResume 0) (suspendedDispatch 1) (fun t => decide (EndedAborted (suspendedDispatch 1) t 15 .pieceHeld)) = true := by
  decide +kernel


theorem test_goto_of_a_started_move :
    gives (.moveStart 0) (moving .queued restack) (fun t => decide ((t.cab 0).slot = some ⟨.goto, 7, 4, 32, .pick⟩)) = true ∧
    (⟨.goto, 7, 4, 32, .pick⟩ : Instruction).block = [1, 7, 4, 0, 32, 1, 0, 45] := by decide +kernel

def reserving : State :=
  let s := moving .reserving { restack with waitTimer := some 120 }
  s.setCrane 0 { s.crane 0 with mon := { s.mon 0 with request := some [4, 3] } }

theorem test_wait_timer_expiry : ActiveIs reserving 0 15 ∧ (reserving.move 15).waitTimer.isSome = true ∧
    gives (.waitTimerExpiry 0) reserving (fun t => decide (EndedAborted reserving t 15 .reserveTimeout)) = true := by decide +kernel

def travelling (st : MoveState) : State := moving st { restack with travelTimer := some 180 }

theorem test_travel_timer_expiry : ActiveIs (travelling .toPick) 0 15 ∧ ((travelling .toPick).move 15).travelling = true ∧
    (travelling .toPick).isLoaded ((travelling .toPick).move 15) = false ∧
    gives (.travelTimerExpiry 0) (travelling .toPick) (fun t => decide (EndedAborted (travelling .toPick) t 15 .travelTimeout)) = true ∧
    (travelling .toPlace).isLoaded ((travelling .toPlace).move 15) = true ∧
    gives (.travelTimerExpiry 0) (travelling .toPlace) (fun t => decide ((t.move 15).state = .suspended ∧
      (t.move 15).remembered = some .toPlace)) = true := by decide +kernel

/-- A suspended move without load whose link is lost. -/
def lost : State :=
  let s := (moving .toPick restack).putMove 15 { (moving .toPick restack).move 15 with state := .suspended, remembered := some .toPick }
  s.setCrane 0 { s.crane 0 with cab := { s.cab 0 with link := .lost, lostTimer := 30000, lostRuns := true } }

theorem test_lost_timer_expiry : ActiveIs lost 0 15 ∧ lost.isLoaded (lost.move 15) = false ∧
    gives (.lostTimerExpiry 0) lost (fun t => decide (EndedAborted lost t 15 .linkLost)) = true := by decide +kernel

theorem test_cannot : ReportFor (moving .toPick restack) 0 15 (rep 4 32 0) ∧
    gives (.cannot 0 (rep 4 32 0)) (moving .toPick restack)
      (fun t => decide (EndedAborted (moving .toPick restack) t 15 .cabRefused)) = true ∧
    gives (.cannot 0 (rep 4 32 0)) (moving .toPlace restack)
      (fun t => decide ((t.move 15).state = .suspended ∧ (t.cab 0).sequence = true)) = true := by decide +kernel

/-- A report on a cab link, up to the end of its gap. -/
def reportLine (kind : ReportKind) (r : CabReport) : List Bool :=
  lineOf (((reportBlock kind r).map (·.data)).flatMap cabFrame) 481

theorem test_cab_block :
    (cabForm.listen (ready.cab 1).rx [] [false, true]).ended = false ∧
    gives (.cabBlock 1 [false, true]) busy (fun t => decide ((t.cab 1).rx.high = true ∧ (t.cab 1).link = .up)) = true ∧
    (cabForm.listen (ready.cab 1).rx [] (reportLine .status (rep 1 2 3))).ended = true ∧
    (cabForm.listen (ready.cab 1).rx [] (reportLine .status (rep 1 2 3))).rest = [] ∧
    (reportOf (cabForm.listen (ready.cab 1).rx [] (reportLine .status (rep 1 2 3))).chars).map (·.kind) = some .status ∧
    gives (.cabBlock 1 (reportLine .status (rep 1 2 3))) ready (fun t => decide ((t.cab 1).link = .up)) = true := by decide +kernel

theorem test_cab_block_refused :
    (cabForm.listen (ready.cab 1).rx [] (lineOf (cabFrame 7) 481)).ended = true ∧
    reportOf (cabForm.listen (ready.cab 1).rx [] (lineOf (cabFrame 7) 481)).chars = none ∧
    gives (.cabBlock 1 (lineOf (cabFrame 7) 481)) ready (fun t => decide ((t.cab 1).link = .quiet ∧ (t.cab 1).block = [])) = true := by
  decide +kernel

theorem test_status : (ready.cab 1).reports = [] ∧
    gives (.status 1 (rep 0 0 0)) ready (fun t => decide ((t.cab 1).link = .up ∧ (t.cab 1).reports = [])) = true := by decide +kernel

theorem test_quiet_timer_expiry : ((moving .toPick restack).cab 0).link ≠ .lost ∧
    gives (.quietTimerExpiry 0) (moving .toPick restack)
      (fun t => decide ((t.cab 0).link = .lost ∧ (t.move 15).state = .suspended ∧ (t.move 15).remembered = some .toPick)) = true := by
  decide +kernel

def goto : Instruction := ⟨.goto, 7, 4, 32, .pick⟩

def sending : Sending := ⟨goto, goto.block⟩

def instructed (slot : Option Instruction) (shifter : Option Sending) (cabIsReady : Bool) : State :=
  ready.setCrane 1 { ready.crane 1 with cab := { ready.cab 1 with slot := slot, shifter := shifter, cabReady := cabIsReady } }

theorem test_cab_ready :
    gives (.cabReady 1 true) (instructed (some goto) none false) (fun t => decide ((t.cab 1).shifter = some sending ∧ (t.cab 1).slot = none)) = true ∧
    gives (.cabReady 1 false) (instructed (some goto) none true) (fun t => decide ((t.cab 1).slot = some goto)) = true ∧
    gives (.shifterFree 1) (instructed (some goto) (some sending) true) (fun t => decide ((t.cab 1).slot = none ∧ (t.cab 1).shifter = some sending)) = true ∧
    gives (.shifterFree 1) (instructed (some goto) (some sending) false) (fun t => decide ((t.cab 1).shifter = none)) = true := by decide +kernel

theorem test_arrived :
    ReportFor (atZone 4 (moving .toPick restack)) 0 15 (rep 4 32 0) ∧ ((moving .toPick restack).move 15).target = 4 ∧
    gives (.arrived 0 (rep 4 32 0)) (atZone 4 (moving .toPick restack)) (fun t => decide ((t.move 15).state = .atPick)) = true ∧
    ReportFor (atZone 3 (moving .toPlace restack)) 0 15 (rep 3 32 5) ∧
    gives (.arrived 0 (rep 3 32 5)) (atZone 3 (moving .toPlace restack)) (fun t => decide ((t.move 15).arrived = true ∧
      (t.move 15).state = .atPlace)) = true ∧
    gives (.arrived 0 (rep 3 0 0)) (atZone 3 (moving .toPark { Move.reset with kind := .park }))
      (fun t => decide ((t.move 15).state = .done ∧ (t.cab 0).queue = [])) = true := by decide +kernel

theorem test_lifted : ReportFor (moving .hooked restack) 0 15 (rep 4 32 5) ∧ (moving .hooked restack).inSpan 0 3 = true ∧
    (moving .hooked restack).isLoaded ((moving .hooked restack).move 15) = true ∧
    gives (.lifted 0 (rep 4 32 5)) (moving .hooked restack) (fun t => decide ((t.move 15).state = .toPlace ∧
      (t.cab 0).slot = some ⟨.goto, 7, 3, 32, .place⟩)) = true ∧
    (spanless (moving .hooked restack)).inSpan 0 3 = false ∧
    gives (.lifted 0 (rep 4 32 5)) (spanless (moving .hooked restack)) (fun t => decide ((t.move 15).state = .reserving)) = true := by
  decide +kernel

/-- A place zone outside the span that is granted, and one that is not. -/
theorem test_lifted_beyond_the_span :
    let s (zone : Nat) : State := (moving .hooked restack).putMove 15 { (moving .hooked restack).move 15 with placeZone := zone }
    (s 19).inSpan 0 19 = false ∧ grantedAtOnce (s 19) 0 [19] = true ∧ grantedAtOnce (s 20) 0 [20] = false ∧
    gives (.lifted 0 (rep 4 32 5)) (s 19) (fun t => decide ((t.move 15).state = .toPlace ∧ (t.mon 0).span = some ⟨2, 19⟩)) = true ∧
    gives (.lifted 0 (rep 4 32 5)) (s 20) (fun t => decide ((t.move 15).state = .reserving ∧ (t.mon 0).request = some [20])) = true := by
  decide +kernel

theorem test_landed : ReportFor (moving .atPlace restack) 0 15 (rep 3 32 5) ∧
    gives (.landed 0 (rep 3 32 5)) (moving .atPlace restack) (fun t => decide ((t.move 15).state = .landed)) = true := by decide +kernel

theorem test_hooked : (moving .atPick restack).Calm ∧ ReportFor (moving .atPick restack) 0 15 (rep 4 32 5) ∧
    ((moving .atPick restack).slot? 4) = some ⟨4, 3, true, [32], [⟨7, .pick, 32⟩]⟩ ∧
    gives (.hooked 0 (rep 4 32 5)) (moving .atPick restack) (fun t => decide ((t.move 15).state = .hooked ∧
      (t.piece? 32).map (fun p => (p.state, p.claim)) = some (.onHook, 7) ∧ t.slot? 4 = some ⟨4, 3, true, [], []⟩)) = true := by
  decide +kernel

/-- A state whose crane 0 has a report at the head of its list. -/
def listing (kind : ReportKind) (r : CabReport) (s : State) : State :=
  setCab 0 { s.cab 0 with reports := [⟨kind, r.tag.toNat, r.zone.toNat, r.piece.toNat, r.load.toNat⟩] } s

/-- Another move's tag, a SUSPENDED move, no active move, and a CANNOT before an instruction (R161). -/
theorem test_stale_reports :
    HearsTheNext (moving .toPick restack) 0 ∧ (moving .toPick restack).activeMove 0 = some 15 ∧ ready.activeMove 1 = none ∧
    gives (.arrived 0 { rep 4 32 0 with tag := 8 }) (atZone 4 (moving .toPick restack))
      (fun t => decide (DroppedAsStale (atZone 4 (moving .toPick restack)) t 0 .arrived 8)) = true ∧
    gives (.lifted 0 (rep 4 32 5)) (moving .suspended { restack with remembered := some .hooked })
      (fun t => decide (DroppedAsStale (moving .suspended { restack with remembered := some .hooked }) t 0 .lifted 7)) = true ∧
    gives (.cannot 0 (rep 4 32 0)) (moving .reserving restack)
      (fun t => decide (DroppedAsStale (moving .reserving restack) t 0 .cannot 7)) = true ∧
    gives (.landed 1 (rep 4 32 0)) ready (fun t => decide (DroppedAsStale ready t 1 .landed 7)) = true := by decide +kernel

theorem test_reports_out_of_phase :
    ReportFor (moving .queued restack) 0 15 (rep 4 32 0) ∧ ReportFor (moving .toPick restack) 0 15 (rep 5 32 0) ∧
    gives (.arrived 0 (rep 5 32 0)) (atZone 4 (moving .toPick restack)) (fun t => decide (TakenOutOfPhase (atZone 4 (moving .toPick restack)) t 0 15)) = true ∧
    gives (.lifted 0 (rep 4 32 0)) (moving .toPick restack) (fun t => decide (TakenOutOfPhase (moving .toPick restack) t 0 15)) = true ∧
    gives (.landed 0 (rep 4 32 0)) (moving .queued restack) (fun t => decide (TakenOutOfPhase (moving .queued restack) t 0 15)) = true := by
  decide +kernel

/-- A HOOKED is judged when its event is tried: stale, out of phase by its load or its move's state, or done. -/
theorem test_hooked_is_judged_later :
    HearsTheNext (moving .atPick restack) 0 ∧ .report 0 ∉ (moving .atPick restack).path.kept ∧ .report 0 ∉ (moving .atPick restack).path.outbox ∧
    (match form (.report 0) (listing .hooked { rep 4 32 5 with tag := 8 } (moving .atPick restack)) with
     | (u, none) => decide ((u.move 15).state = .atPick ∧ (u.cab 0).reports = [] ∧ .staleReport ∈ u.notices.writeList.map (·.kind))
     | _ => false) = true ∧
    (match form (.report 0) (listing .hooked (rep 4 32 0) (moving .atPick restack)) with
     | (u, none) => decide (TakenOutOfPhase (moving .atPick restack) u 0 15 ∧ (u.cab 0).reports = [])
     | _ => false) = true ∧
    (match form (.report 0) (listing .unhooked (rep 3 32 0) (moving .atPlace restack)) with
     | (u, none) => decide (TakenOutOfPhase (moving .atPlace restack) u 0 15 ∧ (u.cab 0).reports = [])
     | _ => false) = true ∧
    gives (.unhooked 0 (rep 3 32 0)) (moving .atPlace restack) (fun t => decide ((t.move 15).state = .suspended ∧ (t.cab 0).sequence = true)) = true := by
  decide +kernel

/-- The HOOKED at the head of a list with a LIFTED behind it. -/
def hookedThenLifted : State :=
  setCab 0 { (moving .atPick restack).cab 0 with reports := [⟨.hooked, 7, 4, 32, 5⟩, ⟨.lifted, 7, 4, 32, 5⟩] } (moving .atPick restack)

/-- The move that the LIFTED changes is written again behind the group of the HOOKED (R161, R40). Before the group stand
the refreshes of the crane records. -/
theorem test_report_behind_a_hooked : (match (tryJob (.report 0) hookedThenLifted).path.queue.drop 2 with
    | .group g :: rest => decide (recordSpan .moveTable 15 (moveWords { (moving .atPick restack).move 15 with state := .hooked }) ∈ g.spans) &&
        rest.any (fun x => x.isSlotOf .moveTable 15)
    | _ => false) = true ∧ ((tryJob (.report 0) hookedThenLifted).move 15).state = .toPlace := by decide +kernel

/-- The LIFT of the last piece of a DETENSIONED bed. -/
def lifting : State :=
  let s := (moving .atPick { Move.reset with kind := .lift }).setPiece 32 { stockPiece 0 .inBed with claim := 7, position := 1 }
  (s.setBedUnit 23 { s.bedUnit 23 with state := .detensioned, inBed := [32] }).setCureUnit 23
    { s.cureUnit 23 with bedState := .detensioned, maturity := 1200 }

theorem test_hooked_from_a_bed : lifting.Calm ∧ ReportFor lifting 0 15 (rep 4 32 5) ∧ lifting.liftGate 32 = true ∧
    gives (.hooked 0 (rep 4 32 5)) lifting (fun t => decide ((t.move 15).state = .hooked ∧ (t.bedUnit 23).state = .empty ∧
      (t.bedUnit 23).inBed = [] ∧ (t.piece? 32).map (·.maturity) = some 1200)) = true := by decide +kernel

theorem test_unhooked : (moving .landed restack).Calm ∧ ReportFor (moving .landed restack) 0 15 (rep 3 32 0) ∧
    ((moving .landed restack).slot? 3) = some ⟨3, 3, true, [], [⟨7, .place, 32⟩]⟩ ∧
    gives (.unhooked 0 (rep 3 32 0)) (moving .landed restack) (fun t => decide ((t.move 15).state = .done ∧
      (t.piece? 32).map (fun p => (p.state, p.claim, p.slot)) = some (.inStock, 0, 3) ∧
      t.slot? 3 = some ⟨3, 3, true, [32], []⟩)) = true := by decide +kernel

def landedAtBay : State := (moving .landed restack).putMove 15 { (moving .landed restack).move 15 with dest := 255, placeZone := 30 }

theorem test_unhooked_at_the_bay : landedAtBay.Calm ∧ ReportFor landedAtBay 0 15 (rep 30 32 0) ∧
    gives (.unhooked 0 (rep 30 32 0)) landedAtBay (fun t => decide ((t.piece? 32).map (fun p => (p.state, p.zone)) = some (.dispatched, 30) ∧
      32 ∈ t.stock.dispatched)) = true := by decide +kernel

theorem test_abort : (moving .toPick restack).Calm ∧ ready.WordLies .moveTable 15 13 3553 ∧
    gives (.abort 15) (moving .toPick restack) (fun t => decide (EndedAborted (moving .toPick restack) t 15 .host)) = true ∧
    gives (.abort 15) (moving .hooked restack) (fun t => decide (t.path.refusal.reason = .loadOnHook ∧ t.mem = [])) = true := by
  decide +kernel

theorem test_redirect : (moving .toPlace restack).redirectable ((moving .toPlace restack).move 15) = true ∧
    locate ready.path.windows 3554 = some ⟨.moveTable, 15, 14⟩ ∧
    gives (.redirect 15 2) (moving .toPlace restack)
      (fun t => decide (((t.move 15).ctrl.map (·.code)) = some .redirect ∧ wordAt t.mem 3554 = 2)) = true ∧
    (moving .landed restack).redirectable ((moving .landed restack).move 15) = false ∧
    gives (.redirect 15 2) (moving .landed restack) (fun t => decide (t.path.refusal.reason = .state ∧ t.mem = [])) = true := by
  decide +kernel

/-- A redirect of move 7, in TO_PLACE with its load, whose new destination has been read or is being read. -/
def redirecting (stage : CtrlStage) (dest : Nat) : State :=
  (moving .toPlace restack).putMove 15 { (moving .toPlace restack).move 15 with ctrl := some ⟨.redirect, stage, .none, dest⟩ }

theorem test_redirect_read :
    gives .ownReadDone (returned (.redirect 15) .moveTable (some (List.replicate 14 0 ++ [2, 0])) (redirecting .readInFlight 0))
      (fun t => decide ((t.move 15).dest = 2 ∧ t.slot? 2 = some ⟨20, 3, true, [], [⟨7, .place, 32⟩]⟩ ∧
        t.slot? 3 = some ⟨3, 3, true, [], []⟩)) = true ∧
    gives .ownReadDone (returned (.redirect 15) .moveTable none (redirecting .readInFlight 0))
      (fun t => decide ((t.move 15).dest = 3 ∧ (t.move 15).ctrlResult = resultWord 2 .memory)) = true := by decide +kernel

theorem test_redirect_verdict :
    let s := redirecting .waitingSlot 2
    s.redirectVerdict (s.move 15) 2 = .none ∧ s.redirectVerdict (s.move 15) 3 = .badDest ∧ s.redirectVerdict (s.move 15) 9 = .badDest ∧
    s.redirectVerdict (s.move 15) 255 = .notReady ∧ PartsAtLoaded s [⟨7, .place, 32⟩] [⟨7, .place, 32⟩] [] ∧
    (s.setSlot 2 ⟨20, 0, true, [], []⟩).redirectVerdict (s.move 15) 2 = .noRoom ∧
    (s.setSlot 2 ⟨20, 3, false, [], []⟩).redirectVerdict (s.move 15) 2 = .slotClosed := by decide +kernel

theorem test_redirect_group :
    (match form (.redirect 15) (redirecting .waitingSlot 2) with
     | (u, some (spans, done)) => decide (done = .control 15 ∧ spans.length = 4 ∧ (u.move 15).dest = 2 ∧
         (u.move 15).ctrlResult = resultWord 2 .accepted)
     | _ => false) = true ∧
    (match form (.redirect 15) (redirecting .waitingSlot 9) with
     | (u, some (spans, _)) => decide (spans = [recordSpan .moveTable 15 [(13, 0), (15, resultWord 2 .badDest)]] ∧ (u.move 15).dest = 3)
     | _ => false) = true := by decide +kernel

/-- The new place zone in the span, in a span that can be granted, and one zone too near the other crane. -/
theorem test_redirect_goes_on : RequestsItsTargets (redirecting .waitingSlot 2) 1 ∧
    (let s (zone : Nat) : State := (redirecting .waitingSlot 2).setSlot 2 ⟨zone, 3, true, [], []⟩
     ActiveIs (s 3) 0 15 ∧ (s 3).isLoaded ((s 3).move 15) = true ∧ (s 4).inSpan 0 4 = true ∧
     ((form (.redirect 15) (s 4)).1.move 15).state = .toPlace ∧ (s 19).inSpan 0 19 = false ∧
     grantedAtOnce (s 19) 0 [19] = true ∧ ((form (.redirect 15) (s 19)).1.mon 0).span = some ⟨2, 19⟩ ∧
     ((form (.redirect 15) (s 19)).1.move 15).state = .toPlace ∧ grantedAtOnce (s 20) 0 [20] = false ∧
     ((form (.redirect 15) (s 20)).1.move 15).state = .reserving) :=
  ⟨requestsItsTargets (by decide +kernel), by decide +kernel⟩

/-! ### Ways a poll ends, and acknowledgements of probes and cranes -/

/-- What the receiver of a waiting poll hears of a reply. -/
def heard (samples : List Bool) : Heard := loopForm.listen ((polled .online 0 0).loop 3).rx ((polled .online 0 0).loop 3).received samples

theorem test_heard_replies : ((polled .online 0 0).loop 3).replyBegun = false ∧ ((polled .online 0 0).loop 3).tx = .released ∧
    (heard goodReply).ended = true ∧ (heard goodReply).rest = [] ∧ judgeReply 30 (heard goodReply).chars = .good ⟨500, 200⟩ ∧
    (heard brokenReply).ended = true ∧ (heard brokenReply).rest = [] ∧ judgeReply 30 (heard brokenReply).chars = .framing := by decide +kernel

theorem test_ends_poll :
    EndsPoll ((polled .online 0 0).loop 3) 3 30 (.replyWindowExpiry 3) (.miss .timeout) ∧
    EndsPoll ((polled .online 0 0).loop 3) 3 30 (.replyLimitExpiry 3) (.miss .timeout) ∧
    EndsPoll ((polled .online 0 0).loop 3) 3 30 (.probeReply 3 goodReply) (.good ⟨500, 200⟩) ∧
    EndsPoll ((polled .online 0 0).loop 3) 3 30 (.probeReply 3 brokenReply) .framing := by
  have ends : ∀ samples, (heard samples).ended = true → (heard samples).rest = [] →
      loopForm.listen ((polled .online 0 0).loop 3).rx ((polled .online 0 0).loop 3).received samples =
        ⟨(heard samples).rx, (heard samples).chars, true, []⟩ := by
    intro samples ended rest
    change heard samples = _
    rw [← ended, ← rest]
  obtain ⟨silent, free, goodEnds, goodRest, good, brokenEnds, brokenRest, broken⟩ := test_heard_replies
  exact ⟨.window silent, .limit, good ▸ .block goodReply _ _ free (ends _ goodEnds goodRest),
    broken ▸ .block brokenReply _ _ free (ends _ brokenEnds brokenRest)⟩

def barred : State := { ready with roster := [{ probe 3 30 .yard .barred with alarm := ⟨.seen, 2, 900⟩, miss := 3 }] }

/-- A crane whose SEEN alarm holds a latched CONFLICT and SEQUENCE, with both travel feedbacks active or none. -/
def conflicting (active : Bool) : State :=
  ready.setCrane 1 { ready.crane 1 with
    alarm := ⟨.seen, 36, 900⟩, cab := { ready.cab 1 with sequence := true },
    mon := { ready.mon 1 with detecting := true, latched := [.conflict], feedback := ⟨active, active, false, false⟩ } }

theorem test_ack_of_a_conflict :
    gives (.ack (.crane 1)) (conflicting true) (fun t => decide (.conflict ∈ (t.mon 1).latched ∧ (t.alarm (.crane 1)).state = .raised)) = true ∧
    ((conflicting true).mon 1).conflict = true ∧
    gives (.ack (.crane 1)) (conflicting false) (fun t => decide ((t.mon 1).latched = [] ∧ (t.alarm (.crane 1)).state = .clear)) = true := by
  decide +kernel

/-- A crane whose SEEN alarm holds a latched DISOBEY and OVERRUN: it stands off the runway, with a feedback active against a
permit that is long off. -/
def disobeying : State :=
  ready.setCrane 1 { ready.crane 1 with
    alarm := ⟨.seen, 10, 900⟩,
    mon := { ready.mon 1 with detecting := true, latched := [.disobey, .overrun], feedback := ⟨true, false, false, false⟩,
                              offTimers := ⟨2001, 0, 0, 0⟩, homed := true, posZone := some 32 } }

theorem test_ack_of_a_disobey : disobeying.Calm ∧ (disobeying.mon 1).disobeys = true ∧ disobeying.onRunway 32 = false ∧
    gives (.ack (.crane 1)) disobeying (fun t => decide ((t.alarm (.crane 1)).state = .raised ∧
      (t.alarm (.crane 1)).conditions = 10 ∧ .disobey ∈ (t.mon 1).latched ∧ .overrun ∈ (t.mon 1).latched)) = true := by decide +kernel

/-- The last condition of an ACKED alarm goes: CLEAR with a notice; of a SEEN one: SEEN with none (R179). -/
theorem test_condition_gone :
    (let u := conditionGone (.crane 1) 0 (alarmed .acked)
     u.alarm (.crane 1) = ⟨.clear, 0, 900⟩ ∧ u.notices.writeList.map (·.kind) = [.alarmCleared]) ∧
    (let u := conditionGone (.crane 1) 0 (alarmed .seen)
     u.alarm (.crane 1) = ⟨.seen, 0, 900⟩ ∧ u.notices = ready.notices) ∧
    conditionGone (.crane 1) 1 (alarmed .acked) = alarmed .acked := by decide +kernel

def latchedCrane : State :=
  ready.setCrane 1 { ready.crane 1 with alarm := ⟨.seen, 1, 900⟩, cab := { ready.cab 1 with sequence := true } }

theorem test_ack_probe_and_crane : barred.Calm ∧ barred.WordLies .roster 0 13 2913 ∧
    gives (.ack (.probe 0)) barred (fun t => decide ((t.roster[0]?).map (fun e => (e.state, e.miss)) = some (.suspect, 0))) = true ∧
    latchedCrane.Calm ∧ gives (.ack (.crane 1)) latchedCrane (fun t => decide ((t.cab 1).sequence = false)) = true := by decide +kernel

end Sys2Proof.Tests
end

section
/-! The casting beds (chapter 1): what a bed request does from its write in a calm part to the hand-over of its groups, and
what the completion of a group does. -/

namespace Sys2Proof.Machine

/-! ### How a request is judged (R5) -/

theorem bedCode_toNat_range (code : BedCode) : 1 ≤ code.toNat ∧ code.toNat ≤ 9 := by
  cases code <;> decide

theorem bedCode_ofNat?_toNat (code : BedCode) : BedCode.ofNat? code.toNat = some code := by
  cases code <;> rfl

/-- Every number from 1 to 9 is the code of a request (R190). -/
theorem bedCode_of_range {value : Nat} (low : value ≠ 0) (high : ¬ 9 < value) : ∃ code : BedCode, code.toNat = value := by
  match value with
  | 0 => exact absurd rfl low
  | 1 => exact ⟨.prepare, rfl⟩
  | 2 => exact ⟨.cast, rfl⟩
  | 3 => exact ⟨.startCure, rfl⟩
  | 4 => exact ⟨.stand, rfl⟩
  | 5 => exact ⟨.hold, rfl⟩
  | 6 => exact ⟨.resume, rfl⟩
  | 7 => exact ⟨.endCure, rfl⟩
  | 8 => exact ⟨.detension, rfl⟩
  | 9 => exact ⟨.clear, rfl⟩
  | n + 10 => exact absurd (by omega) high

/-- The table of section 1.4: where each request is legal, by its code. -/
theorem bedCode_legal_iff (code : BedCode) (state : BedState) (sub : Option SubState) :
    code.legal state sub = true ↔
      (code.toNat, state) ∈ [(1, .empty), (2, .prepared), (9, .prepared), (3, .cast), (3, .standing), (4, .cast), (9, .cast),
        (7, .curing), (8, .releasable)] ∨
      (code.toNat = 5 ∧ state = .curing ∧ sub ≠ some .held) ∨ (code.toNat = 6 ∧ state = .curing ∧ sub = some .held) := by
  cases code <;> cases state <;> simp [BedCode.legal, BedCode.toNat]

/-- A code is judged by the request in progress, the table of section 1.4, and the room for a CAST (R5). -/
theorem bedVerdict_code (s : State) (b : Fin 24) (code : BedCode) :
    s.bedVerdict b code.toNat =
      if (s.bedUnit b).request ≠ none then .busy
      else if code.legal (s.bedUnit b).state (s.subState b) = false then .state
      else if code = .cast ∧ s.freeCount < (s.bedUnit b).pieceCount then .noRoom
      else .none := by
  have range := (bedCode_toNat_range code).2
  simp only [State.bedVerdict, bedCode_ofNat?_toNat, if_neg (Nat.not_lt.2 range)]

/-- Settles O26, by the code that the value stands for, if it stands for one. -/
theorem bedRequestIsJudgedInOrder : Obligations.BedRequestIsJudgedInOrder := by
  unfold Obligations.BedRequestIsJudgedInOrder
  intro s b value
  by_cases high : 9 < value
  · simp only [State.bedVerdict, high, if_true]
  by_cases zero : value = 0
  · subst zero
    cases request : (s.bedUnit b).request <;> simp [State.bedVerdict, request, BedCode.ofNat?]
  obtain ⟨code, rfl⟩ := bedCode_of_range zero high
  have cast_iff : code.toNat = 2 ↔ code = .cast := by cases code <;> decide
  simp only [bedVerdict_code, if_neg high, if_neg zero, ← bedCode_legal_iff code _ (s.subState b)]
  cases request : (s.bedUnit b).request with
  | some r => simp
  | none =>
    cases legal : code.legal (s.bedUnit b).state (s.subState b) <;> simp [cast_iff]

end Sys2Proof.Machine
end

section
/-! The course of a bed request in a calm part, from its write to its result group. -/

namespace Sys2Proof.Machine

/-! ### One bed's owners -/

@[simp] theorem cureUnit_setBedUnit (s : State) (b c : Fin 24) (x : BedUnit) : (s.setBedUnit b x).cureUnit c = s.cureUnit c := by
  simp only [State.setBedUnit, State.cureUnit, bed_setBed]
  split <;> simp_all

@[simp] theorem steamBed_setBedUnit (s : State) (b c : Fin 24) (x : BedUnit) : (s.setBedUnit b x).steamBed c = s.steamBed c := by
  simp only [State.setBedUnit, State.steamBed, bed_setBed]
  split <;> simp_all

@[simp] theorem bedUnit_setCureUnit (s : State) (b c : Fin 24) (x : CuringUnit) : (s.setCureUnit b x).bedUnit c = s.bedUnit c := by
  simp only [State.setCureUnit, State.bedUnit, bed_setBed]
  split <;> simp_all

@[simp] theorem steamBed_setCureUnit (s : State) (b c : Fin 24) (x : CuringUnit) :
    (s.setCureUnit b x).steamBed c = s.steamBed c := by
  simp only [State.setCureUnit, State.steamBed, bed_setBed]
  split <;> simp_all

@[simp] theorem bedUnit_setSteamBed (s : State) (b c : Fin 24) (x : SteamBed) : (s.setSteamBed b x).bedUnit c = s.bedUnit c := by
  simp only [State.setSteamBed, State.bedUnit, bed_setBed]
  split <;> simp_all

@[simp] theorem cureUnit_setSteamBed (s : State) (b c : Fin 24) (x : SteamBed) : (s.setSteamBed b x).cureUnit c = s.cureUnit c := by
  simp only [State.setSteamBed, State.cureUnit, bed_setBed]
  split <;> simp_all

/-- Of two settings of a bed's unit the later stands. -/
theorem setBedUnit_setBedUnit (s : State) (b : Fin 24) (x y : BedUnit) : (s.setBedUnit b x).setBedUnit b y = s.setBedUnit b y := by
  simp only [State.setBedUnit, bed_setBed, if_true]
  simp only [State.setBed, Vector.set_set]

/-- What is kept for a bed follows from the table of the beds. -/
theorem owners_of_beds {s t : State} (h : t.beds = s.beds) (b : Fin 24) :
    t.bedUnit b = s.bedUnit b ∧ t.cureUnit b = s.cureUnit b ∧ t.steamBed b = s.steamBed b ∧ t.bed b = s.bed b := by
  have bed : t.bed b = s.bed b := by rw [State.bed, h]; rfl
  refine ⟨?_, ?_, ?_, bed⟩
  · rw [State.bedUnit, bed]; rfl
  · rw [State.cureUnit, bed]; rfl
  · rw [State.steamBed, bed]; rfl

theorem mix_of_mixes {s t : State} (h : t.mixes = s.mixes) (m : Nat) : t.mix m = s.mix m := by
  simp only [State.mix, h]

/-! ### The piece copies -/

theorem piece?_of_stock {s t : State} (h : t.stock = s.stock) (n : Nat) : t.piece? n = s.piece? n := by
  simp only [State.piece?, h]

/-- A piece that is there takes what it is set to, and the others stay. -/
theorem piece?_setPiece (s : State) (n m : Nat) (p : Piece) (there : n ≠ 0) :
    (s.setPiece n p).piece? m = if m = n then (s.piece? m).map (fun _ => p) else s.piece? m := by
  simp only [State.piece?, State.setPiece, List.getElem?_set]
  by_cases zero : m = 0
  · simp [zero]
  · by_cases same : m = n
    · subst same
      simp only [if_neg zero, if_true]
      split <;> simp_all
    · have other : ¬ n - 1 = m - 1 := by omega
      simp only [if_neg zero, if_neg other, if_neg same]

/-- A change of one piece's copies at a time, folded over a list, changes each piece of the list once and for all. -/
theorem piece?_foldl (f : State → Nat → State) (g : Nat → Piece → Piece)
    (one : ∀ s n m, (f s n).piece? m = if m = n then (s.piece? m).map (g n) else s.piece? m)
    (twice : ∀ n p, g n (g n p) = g n p) (ns : List Nat) (s : State) (m : Nat) :
    (ns.foldl f s).piece? m = if m ∈ ns then (s.piece? m).map (g m) else s.piece? m := by
  induction ns generalizing s with
  | nil => rfl
  | cons n rest ih =>
    rw [List.foldl_cons, ih, one]
    by_cases same : m = n
    · subst same
      by_cases again : m ∈ rest <;> simp [again, Option.map_map, Function.comp_def, twice]
    · simp [same]

/-! ### The request in progress -/

/-- A bed's request in progress is put, or ended. -/
def State.putRequest (s : State) (b : Fin 24) (r : Option BedRequest) : State :=
  s.setBedUnit b { s.bedUnit b with request := r }

theorem formResult_eq (b : Fin 24) (r : BedRequest) (s : State) :
    formResult b r s = handJob (.bedRequest b) (s.putRequest b (some { r with stage := .waitingSlot })) := rfl

@[simp] theorem bedUnit_putRequest (s : State) (b : Fin 24) (r : Option BedRequest) :
    (s.putRequest b r).bedUnit b = { s.bedUnit b with request := r } := by
  simp [State.putRequest]

@[simp] theorem cureUnit_putRequest (s : State) (b c : Fin 24) (r : Option BedRequest) :
    (s.putRequest b r).cureUnit c = s.cureUnit c := by
  simp [State.putRequest]

@[simp] theorem steamBed_putRequest (s : State) (b c : Fin 24) (r : Option BedRequest) :
    (s.putRequest b r).steamBed c = s.steamBed c := by
  simp [State.putRequest]

@[simp] theorem putRequest_keeps (s : State) (b : Fin 24) (r : Option BedRequest) :
    (s.putRequest b r).mem = s.mem ∧ (s.putRequest b r).host = s.host ∧ (s.putRequest b r).path = s.path ∧
    (s.putRequest b r).dir = s.dir ∧ (s.putRequest b r).notices = s.notices ∧ (s.putRequest b r).mixes = s.mixes ∧
    (s.putRequest b r).freeCount = s.freeCount ∧ (s.putRequest b r).roster = s.roster ∧ (s.putRequest b r).stock = s.stock ∧
    (s.putRequest b r).cranes = s.cranes ∧ (s.putRequest b r).moves = s.moves := by
  simp [State.putRequest]

/-- What forming a result leaves of the bed, and that its group is the event handed last. -/
theorem formResult_sets (b : Fin 24) (r : BedRequest) (s : State) :
    (formResult b r s).bedUnit b = { s.bedUnit b with request := some { r with stage := .waitingSlot } } ∧
    (formResult b r s).path = { s.path with outbox := s.path.outbox ++ [.bedRequest b] } ∧
    (formResult b r s).notices = s.notices := by
  refine ⟨?_, rfl, rfl⟩
  exact bedUnit_putRequest s b (some { r with stage := .waitingSlot })

/-! ### The mixes and the bed state (R1, R4) -/

/-- A mix is counted up or down, and the others keep their count. -/
theorem mix_changeUse (mix m : Nat) (change : Int) (s : State) (low : 1 ≤ m) (high : m ≤ 16) :
    (changeUse mix change s).mix m =
      if m = mix then { s.mix mix with useCount := ((s.mix mix).useCount + change).toNat } else s.mix m := by
  simp only [changeUse, State.setMix]
  by_cases range : 1 ≤ mix ∧ mix ≤ 16
  · have get := vector_get_set s.mixes ⟨mix - 1, by omega⟩ ⟨m - 1, by omega⟩
      { s.mix mix with useCount := ((s.mix mix).useCount + change).toNat }
    simp only [dif_pos range, State.mix, dif_pos (And.intro low high)] at get ⊢
    by_cases same : m = mix
    · subst same
      simpa using get
    · have other : mix - 1 ≠ m - 1 := by omega
      simpa [same, other] using get
  · have other : m ≠ mix := fun same => range (same ▸ ⟨low, high⟩)
    rw [dif_neg range, if_neg other]

/-- Both copies of the bed state take it, and nothing else of the bed changes (R4, R73). -/
theorem setBedState_bed (b : Fin 24) (new : BedState) (s : State) :
    (setBedState b new s).bedUnit b = { s.bedUnit b with state := new } ∧
    (setBedState b new s).cureUnit b = { s.cureUnit b with bedState := new } ∧
    (setBedState b new s).steamBed b = s.steamBed b := by
  have set (t : State) (h : t.beds = (s.setBed b { s.bed b with
      unit := { (s.bed b).unit with state := new }, cure := { (s.bed b).cure with bedState := new } }).beds) :
      t.bedUnit b = { s.bedUnit b with state := new } ∧ t.cureUnit b = { s.cureUnit b with bedState := new } ∧
      t.steamBed b = s.steamBed b := by
    obtain ⟨unit, cure, steam, _⟩ := owners_of_beds h b
    rw [unit, cure, steam]
    simp [State.bedUnit, State.cureUnit, State.steamBed]
  simp only [setBedState]
  split
  · exact set _ (by simp)
  · split
    · exact set _ (by simp)
    · exact set _ rfl

/-- A bed that neither leaves EMPTY nor returns there leaves the mixes (R4). -/
theorem setBedState_mixes (b : Fin 24) (new : BedState) (s : State) (h : (s.bedUnit b).state = .empty ↔ new = .empty) :
    (setBedState b new s).mixes = s.mixes := by
  have leaves : ¬ ((s.bedUnit b).state = .empty ∧ new ≠ .empty) := fun k => k.2 (h.1 k.1)
  have returns : ¬ ((s.bedUnit b).state ≠ .empty ∧ new = .empty) := fun k => k.1 (h.2 k.2)
  simp only [setBedState, if_neg leaves, if_neg returns, setBed_keeps]

/-- A bed that leaves EMPTY has its mix counted once more (R4). -/
theorem setBedState_leaves (b : Fin 24) (new : BedState) (s : State) (was : (s.bedUnit b).state = .empty) (is : new ≠ .empty)
    (low : 1 ≤ (s.bedUnit b).mix) (high : (s.bedUnit b).mix ≤ 16) :
    ((setBedState b new s).mix (s.bedUnit b).mix).useCount = (s.mix (s.bedUnit b).mix).useCount + 1 := by
  simp only [setBedState, if_pos (And.intro was is)]
  change ((changeUse (s.bedUnit b).mix 1 _).mix (s.bedUnit b).mix).useCount = _
  rw [mix_changeUse _ _ _ _ low high, if_pos rfl, mix_of_mixes (s := s) (by simp)]
  rfl

/-- A bed that returns to EMPTY has its mix counted once less (R4). -/
theorem setBedState_returns (b : Fin 24) (s : State) (was : (s.bedUnit b).state ≠ .empty)
    (low : 1 ≤ (s.bedUnit b).mix) (high : (s.bedUnit b).mix ≤ 16) :
    ((setBedState b .empty s).mix (s.bedUnit b).mix).useCount = (s.mix (s.bedUnit b).mix).useCount - 1 := by
  simp only [setBedState, if_neg (show ¬ ((s.bedUnit b).state = .empty ∧ BedState.empty ≠ .empty) from fun k => k.2 rfl),
    if_pos (And.intro was trivial)]
  change ((changeUse (s.bedUnit b).mix (-1) _).mix (s.bedUnit b).mix).useCount = _
  rw [mix_changeUse _ _ _ _ low high, if_pos rfl, mix_of_mixes (s := s) (by simp)]
  simp only
  omega

/-! ### The write and the intake read in a calm part (R5, R6; log entry 7) -/

/-- A write that passes finds no request in progress, and its request legal; a CAST finds room (R5). -/
theorem bedVerdict_passes {s : State} {b : Fin 24} {code : BedCode} (h : s.bedVerdict b code.toNat = .none) :
    (s.bedUnit b).request = none ∧ code.legal (s.bedUnit b).state (s.subState b) = true := by
  rw [bedVerdict_code] at h
  cases request : (s.bedUnit b).request with
  | some r => simp [request] at h
  | none =>
    cases legal : code.legal (s.bedUnit b).state (s.subState b) with
    | false => simp [request, legal] at h
    | true => exact ⟨rfl, rfl⟩

/-- The bed states in which a request can be legal (section 1.4). -/
def BedCode.states : BedCode → List BedState
  | .prepare => [.empty]
  | .cast => [.prepared]
  | .startCure => [.cast, .standing]
  | .stand => [.cast]
  | .hold => [.curing]
  | .resume => [.curing]
  | .endCure => [.curing]
  | .detension => [.releasable]
  | .clear => [.prepared, .cast]

theorem mem_states_of_legal {code : BedCode} {state : BedState} {sub : Option SubState} (h : code.legal state sub = true) :
    state ∈ code.states := by
  cases code <;> cases state <;> simp_all [BedCode.legal, BedCode.states]

/-- A request that passes finds its bed in a state in which it is legal (R5). -/
theorem state_of_ready {s : State} {b : Fin 24} {addr : Nat} {code : BedCode} (h : BedReady s b addr code) :
    (s.bedUnit b).state ∈ code.states :=
  mem_states_of_legal (bedVerdict_passes h.2.2.1).2

/-- The request that its intake read finds in progress; a CAST has set its pieces aside (R5, R6). -/
def BedUnit.posted (u : BedUnit) (code : BedCode) : BedRequest :=
  { newRequest code with setAside := if code = .cast then u.pieceCount else 0, stage := .readInFlight }

/-- A calm part in which a bed request has been written and its intake read has returned. -/
def State.examining (s : State) (b : Fin 24) (addr : Nat) (code : BedCode) : State :=
  ({ s with
      mem := setWord s.mem addr (.ofCount code.toNat), host := ⟨none, [], [⟨.done, []⟩]⟩,
      path := { s.path with port := .free, portMs := 0, current := none, queue := [], returned := [], lastServed := .own },
      dir := { s.dir with attn := s.attnWanted },
      freeCount := s.freeCount - if code = BedCode.cast then (s.bedUnit b).pieceCount else 0 }).putRequest b
    (some ((s.bedUnit b).posted code))

/-- The bed's owner passes a request with its event. -/
theorem ownerAnswer_request (s : State) (b : Fin 24) (addr : Nat) (code : BedCode)
    (h : s.bedVerdict b code.toNat = .none) :
    let j : JudgedWord := ⟨addr, ⟨.bed, b.val, 17⟩, .ofCount code.toNat, true⟩
    s.ownerAnswer [j] j = .request (.bed b code) := by
  have value : (Word.ofCount code.toNat).toNat = code.toNat := by cases code <;> rfl
  have fin : fin? 24 b.val = some b := by simp [fin?]
  simp only [State.ownerAnswer, alarmAt, fin, State.bedWord, value, h, bedCode_ofNat?_toNat]
  rfl

theorem updateCopy_request (t : State) (b : Fin 24) (addr : Nat) (v : Word) :
    updateCopy t ⟨addr, ⟨.bed, b.val, 17⟩, v, true⟩ = t := by
  simp [updateCopy, fin?, bedCopy]

/-- With no event of the concrete waiting, a request is put in progress and its intake read asked for (R6, R7). -/
theorem bedPosted_reads (b : Fin 24) (code : BedCode) (s : State) (none_deferred : (s.bedUnit b).deferred = []) :
    bedPosted b code false s = askRecord (.bedIntake b) .bed b.val
      (({ s with freeCount := s.freeCount - if code = BedCode.cast then (s.bedUnit b).pieceCount else 0 } : State).putRequest b
        (some ((s.bedUnit b).posted code))) := by
  simp only [bedPosted, if_pos none_deferred, Bool.false_eq_true, if_false, askIntake, bedUnit_setBedUnit, if_true,
    setBedUnit_setBedUnit]
  rfl

/-- Outside SAFE the intake read of a bed enters the queue at its tail (R41). -/
theorem askRecord_intake (b : Fin 24) (s : State) (live : s.safe = false) :
    askRecord (.bedIntake b) .bed b.val s = s.withPath { s.path with queue := s.path.queue ++ [.read (intakeRead b)] } := by
  simp only [askRecord, askRead, live, Bool.false_eq_true, if_false]
  rfl

/-- A bed request row in a calm part: the word is in memory, the write is answered, and the request is examined on the
record that its intake read has found (R5, R6, R34). -/
theorem bedRequestRow_calm {s : State} {b : Fin 24} {addr : Nat} {code : BedCode} (h : BedReady s b addr code) :
    bedRequestRow b code s =
      examineBed b ((s.bedUnit b).posted code) (intakeRecord s b addr code) (s.examining b addr code) := by
  obtain ⟨calm, lies, passes, none_deferred⟩ := h
  have write := request_calm s .bed b.val 17 addr (.ofCount code.toNat) (.bed b code) calm lies rfl
    (ownerAnswer_request s b addr code passes) (fun t => updateCopy_request t b addr _)
  obtain ⟨running, pend, ⟨up, backlog, port, current, queue, answered, returned, outbox, kept, wait⟩, writes, runway⟩ := calm
  have asked : (takeRequest (.bed b code) (s.written addr (fullWords [.ofCount code.toNat]) [.bed b code])).answeredDone =
      { s.examining b addr code with
        path := { s.path with port := .free, portMs := 0, lastServed := .host, queue := [.read (intakeRead b)] } } := by
    rw [takeRequest, bedPosted_reads b code (s.written addr _ _) none_deferred,
      askRecord_intake b _ (by simp [State.safe, State.written, running])]
    simp only [putRequest_keeps]
    rw [show (s.written addr (fullWords [.ofCount code.toNat]) [.bed b code]).path.queue = [] from queue]
    simp only [State.answeredDone, State.withPath, State.examining, State.written, State.putRequest, State.setBedUnit, State.setBed]
    rfl
  have alone : State.IntakeAlone { s.examining b addr code with
        path := { s.path with port := .free, portMs := 0, lastServed := .host, queue := [.read (intakeRead b)] } } b := by
    refine ⟨rfl, rfl, current, rfl, answered, returned, outbox, kept, writes, pend, runway⟩
  simp only [bedRequestRow]
  rw [write, asked, runIntake_calm b _ alone]
  have handed : State.intakeHanded { s.examining b addr code with
        path := { s.path with port := .free, portMs := 0, lastServed := .host, queue := [.read (intakeRead b)] } } =
      s.examining b addr code := rfl
  rw [handed]
  have request : ((s.examining b addr code).bedUnit b).request = some ((s.bedUnit b).posted code) := by
    simp [State.examining]
  simp only [bedIntakeDone, request]
  rfl

end Sys2Proof.Machine
end

section
/-! The groups of a bed request's result: how they are formed, and that a part with its slots free admits one at once. -/

namespace Sys2Proof.Machine

/-! ### Runs of pieces (R10) -/

theorem runsOf_flatten (ns : List Nat) : (runsOf ns).flatten = ns := by
  induction ns with
  | nil => rfl
  | cons n rest ih =>
    simp only [runsOf]
    split
    · next m run runs e =>
      rw [e] at ih
      split
      · simpa using ih
      · simpa using ih
    · simpa using ih

/-- A list whose runs fit in a group with the bed record is written whole, and the group is the last (R10). -/
theorem nextPieces_fits {ns : List Nat} (h : (runsOf ns).length ≤ 5) : nextPieces ns = (runsOf ns, true) := by
  have fits : (runsOf ns).length + 1 ≤ Config.groupSpans := Nat.succ_le_succ h
  simp only [nextPieces, if_pos fits]

/-- Of a longer list the first six runs are written (R10). -/
theorem nextPieces_part {ns : List Nat} (h : 6 ≤ (runsOf ns).length) : nextPieces ns = ((runsOf ns).take 6, false) := by
  have long : ¬ (runsOf ns).length + 1 ≤ Config.groupSpans := by simp only [Config.groupSpans]; omega
  simp only [nextPieces, if_neg long]
  rfl

/-! ### The groups of a result (R6, R10, R16) -/

/-- The spans of the piece records that a group of a result writes: freed by a CLEAR, made by a CAST. -/
def pieceSpans (b : Fin 24) (mix : Nat) (r : BedRequest) (runs : List (List Nat)) : List Span :=
  match r.code with
  | .clear => runs.map (runSpan (fun _ => pieceFreeWords))
  | _ => runs.map (runSpan (fun n => pieceCastWords (castPiece b mix r n) r.time))

/-- The piece copies once that group has been handed. -/
def pieceCopies (b : Fin 24) (mix : Nat) (r : BedRequest) (ns : List Nat) (s : State) : State :=
  match r.code with
  | .clear => ns.foldl (fun s n => startFreeing n s) s
  | _ => ns.foldl (fun s n => castInto b mix r n s) s

/-- What being written in that group makes of a piece: freed by a CLEAR, new by a CAST but for its own request (R9, R112). -/
def pieceCopy (b : Fin 24) (mix : Nat) (r : BedRequest) (n : Nat) (p : Piece) : Piece :=
  match r.code with
  | .clear => p.freeing
  | _ => { castPiece b mix r n with request := p.request }

theorem piece?_startFreeing (s : State) (n m : Nat) :
    (startFreeing n s).piece? m = if m = n then (s.piece? m).map Piece.freeing else s.piece? m := by
  cases piece : s.piece? n with
  | none =>
    simp only [startFreeing, piece]
    split <;> simp_all
  | some p =>
    have there : n ≠ 0 := by rintro rfl; simp [State.piece?] at piece
    have set : (startFreeing n s).piece? m = (s.setPiece n p.freeing).piece? m := by
      simp only [startFreeing, piece]
      rfl
    rw [set, piece?_setPiece s n m _ there]
    split <;> simp_all

theorem piece?_castInto (b : Fin 24) (mix : Nat) (r : BedRequest) (s : State) (n m : Nat) :
    (castInto b mix r n s).piece? m =
      if m = n then (s.piece? m).map (fun p => { castPiece b mix r n with request := p.request }) else s.piece? m := by
  cases piece : s.piece? n with
  | none =>
    simp only [castInto, piece]
    split <;> simp_all
  | some p =>
    have there : n ≠ 0 := by rintro rfl; simp [State.piece?] at piece
    simp only [castInto, piece]
    rw [piece?_setPiece s n m _ there]
    split <;> simp_all

/-- The pieces a group writes take their new copies, and every other piece keeps its own. -/
theorem piece?_pieceCopies (b : Fin 24) (mix : Nat) (r : BedRequest) (ns : List Nat) (s : State) (n : Nat) :
    (pieceCopies b mix r ns s).piece? n = if n ∈ ns then (s.piece? n).map (pieceCopy b mix r n) else s.piece? n := by
  by_cases clear : r.code = .clear
  · have copy : pieceCopy b mix r = fun _ => Piece.freeing := by
      funext n p
      simp only [pieceCopy, clear]
    simp only [pieceCopies, copy, clear]
    exact piece?_foldl (fun s n => startFreeing n s) (fun _ => Piece.freeing) piece?_startFreeing (fun _ _ => rfl) ns s n
  · have copy : pieceCopy b mix r = fun n p => { castPiece b mix r n with request := p.request } := by
      funext n p
      simp only [pieceCopy]
    simp only [pieceCopies, copy]
    exact piece?_foldl (fun s n => castInto b mix r n s) (fun n p => { castPiece b mix r n with request := p.request })
      (piece?_castInto b mix r) (fun _ _ => rfl) ns s n

theorem pieceCopies_nil (b : Fin 24) (mix : Nat) (r : BedRequest) (s : State) : pieceCopies b mix r [] s = s := by
  simp only [pieceCopies]
  split <;> rfl

@[simp] theorem pieceCopies_keeps (b : Fin 24) (mix : Nat) (r : BedRequest) (ns : List Nat) (s : State) :
    (pieceCopies b mix r ns s).beds = s.beds ∧ (pieceCopies b mix r ns s).mixes = s.mixes := by
  simp only [pieceCopies]
  split
  · exact ⟨foldl_beds _ (by simp) _ _, foldl_mixes _ (by simp) _ _⟩
  · exact ⟨foldl_beds _ (by simp) _ _, foldl_mixes _ (by simp) _ _⟩

theorem pieceSpans_length (b : Fin 24) (mix : Nat) (r : BedRequest) (runs : List (List Nat)) :
    (pieceSpans b mix r runs).length = runs.length := by
  simp only [pieceSpans]
  split <;> simp

theorem pieceSpans_nil (b : Fin 24) (mix : Nat) (r : BedRequest) : pieceSpans b mix r [] = [] :=
  List.eq_nil_of_length_eq_zero (pieceSpans_length b mix r [])

/-- The last group of an accepted result: the rest of the pieces and the bed record, with which the bed takes its state. -/
theorem bedRequestGroup_last {b : Fin 24} {s : State} {r : BedRequest} (request : (s.bedUnit b).request = some r)
    (stage : r.stage = .waitingSlot) (accepted : r.result = .accepted) (fits : (runsOf r.toWrite).length ≤ 5) :
    bedRequestGroup b s =
      let new := r.leadsTo (s.bedUnit b)
      ((acceptBed b r new (pieceCopies b (s.bedUnit b).mix r r.toWrite s)).putRequest b
          (some { r with stage := .resultInFlight, toWrite := [] }),
        some (pieceSpans b (s.bedUnit b).mix r (runsOf r.toWrite) ++
            [recordSpan .bed b.val ((17, 0) :: (30, resultWord r.code.toNat .accepted) :: acceptedWords b r new s)],
          .bedResult b (if r.code = .clear then r.toWrite else []) (stateChange (s.bedUnit b).state new))) := by
  have now : (runsOf r.toWrite).flatMap id = r.toWrite := by rw [List.flatMap_id, runsOf_flatten]
  have left : r.toWrite.filter (fun n => decide (n ∉ r.toWrite)) = [] := by
    simp only [List.filter_eq_nil_iff, decide_eq_true_eq, Decidable.not_not, imp_self, implies_true]
  simp only [bedRequestGroup, request, if_pos stage, if_pos accepted, nextPieces_fits fits, now, left, if_true]
  rfl

/-- A group before the last: the pieces of the first six runs, while the bed keeps its state (R10, R16). -/
theorem bedRequestGroup_part {b : Fin 24} {s : State} {r : BedRequest} (request : (s.bedUnit b).request = some r)
    (stage : r.stage = .waitingSlot) (accepted : r.result = .accepted) (long : 6 ≤ (runsOf r.toWrite).length) :
    bedRequestGroup b s =
      let now := ((runsOf r.toWrite).take 6).flatten
      ((pieceCopies b (s.bedUnit b).mix r now s).putRequest b
          (some { r with stage := .resultInFlight, toWrite := r.toWrite.filter (fun n => decide (n ∉ now)) }),
        some (pieceSpans b (s.bedUnit b).mix r ((runsOf r.toWrite).take 6), .bedPart b (if r.code = .clear then now else []))) := by
  simp only [bedRequestGroup, request, if_pos stage, if_pos accepted, nextPieces_part long, List.flatMap_id,
    Bool.false_eq_true, if_false]
  rfl

/-- The group of a refused request: its result alone (R6). -/
theorem bedRequestGroup_refused {b : Fin 24} {s : State} {r : BedRequest} (request : (s.bedUnit b).request = some r)
    (stage : r.stage = .waitingSlot) (refused : r.result ≠ .accepted) :
    bedRequestGroup b s = (s.putRequest b (some { r with stage := .resultInFlight }),
      some ([recordSpan .bed b.val [(17, 0), (30, resultWord r.code.toNat r.result)]], .bedResult b [] none)) := by
  simp only [bedRequestGroup, request, if_pos stage, if_neg refused]
  rfl

/-- A result that waits has a group, of six spans at most (R10, R38). -/
theorem bedRequestGroup_spans {b : Fin 24} {s : State} {r : BedRequest} (request : (s.bedUnit b).request = some r)
    (stage : r.stage = .waitingSlot) : ∃ spans c, (bedRequestGroup b s).2 = some (spans, c) ∧ spans.length ≤ 6 := by
  by_cases accepted : r.result = .accepted
  · by_cases fits : (runsOf r.toWrite).length ≤ 5
    · rw [bedRequestGroup_last request stage accepted fits]
      exact ⟨_, _, rfl, by simp only [List.length_append, pieceSpans_length, List.length_singleton]; omega⟩
    · rw [bedRequestGroup_part request stage accepted (by omega)]
      exact ⟨_, _, rfl, by simp only [pieceSpans_length, List.length_take]; omega⟩
  · rw [bedRequestGroup_refused request stage accepted]
    exact ⟨_, _, rfl, by simp⟩

/-! ### A part with its slots free (R38) -/

/-- RUNNING with nothing in the upstream port, no group in flight and none waiting: a group handed now is admitted at once. -/
structure State.SlotsFree (s : State) : Prop where
  up : s.host.up = none
  queue : s.path.queue.filter OwnItem.isGroup = []
  current : s.path.current = none
  answered : s.path.answered = []
  wait : s.path.slotWait = []
  outbox : s.path.outbox = []
  running : s.dir.lifecycle = .running
  pend : s.dir.restartPending = false
  runway : s.RunwayCalm

theorem runwayCalm_congr {s t : State} (cranes : t.cranes = s.cranes) (moves : t.moves = s.moves) (h : s.RunwayCalm) :
    t.RunwayCalm := by
  have cab : ∀ c, t.cab c = s.cab c := fun c => by simp only [State.cab, State.crane, cranes]
  intro c
  have calm := h c
  simp only [State.awaitsLowering, State.activeMove, State.entryOf, State.move, cab, moves] at calm ⊢
  exact calm

theorem State.SlotsFree.congr {s t : State} (h : s.SlotsFree) (host : t.host = s.host) (path : t.path = s.path) (dir : t.dir = s.dir)
    (cranes : t.cranes = s.cranes) (moves : t.moves = s.moves) : t.SlotsFree where
  up := by rw [host, h.up]
  queue := by rw [path, h.queue]
  current := by rw [path, h.current]
  answered := by rw [path, h.answered]
  wait := by rw [path, h.wait]
  outbox := by rw [path, h.outbox]
  running := by rw [dir, h.running]
  pend := by rw [dir, h.pend]
  runway := runwayCalm_congr cranes moves h.runway

theorem admissible_of_slotsFree {s : State} (h : s.SlotsFree) (j : Job) (spans : List Span) (few : spans.length ≤ 6) :
    s.admissible (.owner j) spans = true := by
  have used : s.slotsUsed = 0 := by
    simp [State.slotsUsed, State.groupsInFlight, h.up, h.queue, h.current, h.answered]
  simp [State.admissible, State.slotFor, State.slotPlace, used, h.wait, State.takenTouches, h.up, State.safe, h.running, h.pend,
    Config.groupSpans, Config.groupSlots, few]

/-- A result formed with the slots free has its group handed within the command: what the owners keep is what the group
leaves (R6, R38). -/
theorem finish_formResult {b : Fin 24} (r : BedRequest) {s : State} (free : s.SlotsFree) :
    (bedRequestGroup b (s.putRequest b (some { r with stage := .waitingSlot }))).1.SettledAs (finish (formResult b r s)) := by
  have waiting : (formResult b r s).withPath { (formResult b r s).path with outbox := [] } =
      s.putRequest b (some { r with stage := .waitingSlot }) := by
    have path : { s.path with outbox := [] } = s.path := by rw [← free.outbox]
    rw [formResult_eq]
    change ({ s.putRequest b (some { r with stage := .waitingSlot }) with path := { s.path with outbox := [] } } : State) = _
    rw [path]
    rfl
  have request : ((s.putRequest b (some { r with stage := .waitingSlot })).bedUnit b).request =
      some { r with stage := .waitingSlot } := by simp
  have still : (s.putRequest b (some { r with stage := .waitingSlot })).SlotsFree :=
    free.congr (by simp) (by simp) (by simp) (by simp) (by simp)
  obtain ⟨spans, c, formed, few⟩ := bedRequestGroup_spans request rfl
  refine finish_admitted (.bedRequest b) (formResult b r s) _ spans c ?_ ?_ ?_ ?_ (fun _ => rfl) ?_ ?_
  · rw [(formResult_sets b r s).2.1, free.outbox]
    rfl
  · rw [waiting, ← formed]
    rfl
  · rw [waiting]
    exact admissible_of_slotsFree still _ spans few
  · rw [waiting]
    exact meetsTaking_of_not_waiting _ _ (fun u e => nomatch still.up.symm.trans e)
  · rw [(bedRequestGroup_keeps b _).2.2.2.1]
    exact still.outbox
  · exact runwayCalm_congr (by simp) (by simp) still.runway

/-- What settling leaves of the owners' copies. -/
theorem settledAs_owners {u t : State} (h : u.SettledAs t) : t.beds = u.beds ∧ t.mixes = u.mixes ∧ t.stock = u.stock := by
  rw [h]
  exact ⟨rfl, rfl, rfl⟩

/-- The state in which a request of a calm part is examined. -/
theorem examining_slotsFree {s : State} (h : s.Calm) (b : Fin 24) (addr : Nat) (code : BedCode) :
    (s.examining b addr code).SlotsFree := by
  obtain ⟨running, pend, ⟨_, _, _, _, _, answered, _, outbox, _, wait⟩, _, runway⟩ := h
  exact ⟨rfl, rfl, rfl, answered, wait, outbox, running, pend, runway⟩

end Sys2Proof.Machine
end

section
/-! The requests that concern no piece record: PREPARE, STAND, DETENSION, HOLD, RESUME (R8, R12, R13, R15). -/

namespace Sys2Proof.Machine

/-- An accepted request other than CAST changes the bed by its state alone as its last group is handed. -/
theorem acceptBed_plain (b : Fin 24) (r : BedRequest) (new : BedState) (s : State) (h : r.code ≠ .cast) :
    acceptBed b r new s = setBedState b new s := by
  simp only [acceptBed]

theorem leadsTo_putRequest (r : BedRequest) (s : State) (b : Fin 24) (q : Option BedRequest) :
    r.leadsTo ((s.putRequest b q).bedUnit b) = r.leadsTo (s.bedUnit b) := by
  rw [bedUnit_putRequest]
  simp only [BedRequest.leadsTo]

/-- An accepted request other than CAST whose pieces fit in one group, its result formed with the slots free: the bed takes the
state the request leads to, its mix is counted with it, the pieces are written, and nothing else of what is kept for the bed
changes (R4, R6). -/
theorem finish_accepted {b : Fin 24} {r : BedRequest} {s : State} (free : s.SlotsFree) (accepted : r.result = .accepted)
    (fits : (runsOf r.toWrite).length ≤ 5) (plain : r.code ≠ .cast) :
    let new := r.leadsTo (s.bedUnit b)
    let t := finish (formResult b r s)
    t.bedUnit b = { s.bedUnit b with state := new, request := some { r with stage := .resultInFlight, toWrite := [] } } ∧
    t.cureUnit b = { s.cureUnit b with bedState := new } ∧ t.steamBed b = s.steamBed b ∧
    (∃ u : State, u.bedUnit b = { s.bedUnit b with request := (u.bedUnit b).request } ∧ u.mixes = s.mixes ∧
      t.mixes = (setBedState b new u).mixes) ∧
    (∀ n, t.piece? n = if n ∈ r.toWrite then (s.piece? n).map (pieceCopy b (s.bedUnit b).mix r n) else s.piece? n) := by
  intro new t
  let waiting := s.putRequest b (some { r with stage := .waitingSlot })
  let written := pieceCopies b (waiting.bedUnit b).mix { r with stage := .waitingSlot } r.toWrite waiting
  have request : (waiting.bedUnit b).request = some { r with stage := .waitingSlot } := by simp [waiting]
  have group : (bedRequestGroup b waiting).1 =
      (setBedState b new written).putRequest b (some { r with stage := .resultInFlight, toWrite := [] }) := by
    rw [bedRequestGroup_last request rfl accepted fits, leadsTo_putRequest]
    dsimp only
    rw [acceptBed_plain b { r with stage := .waitingSlot } _ _ plain]
    rfl
  have settled := finish_formResult r free (b := b)
  rw [group] at settled
  obtain ⟨beds, mixes, stock⟩ := settledAs_owners settled
  obtain ⟨unit, cure, steam, _⟩ := owners_of_beds beds b
  obtain ⟨set_unit, set_cure, set_steam⟩ := setBedState_bed b new written
  obtain ⟨written_unit, written_cure, written_steam, _⟩ := owners_of_beds (s := waiting) (t := written) (by simp [written]) b
  refine ⟨?_, ?_, ?_, ⟨written, ?_, ?_, ?_⟩, fun n => ?_⟩
  · rw [unit, bedUnit_putRequest, set_unit, written_unit, bedUnit_putRequest]
  · rw [cure, cureUnit_putRequest, set_cure, written_cure, cureUnit_putRequest]
  · rw [steam, steamBed_putRequest, set_steam, written_steam, steamBed_putRequest]
  · rw [written_unit, bedUnit_putRequest]
  · simp [written, waiting]
  · rw [mixes]
    simp
  · have same : ∀ m, waiting.piece? m = s.piece? m := piece?_of_stock (by simp [waiting])
    rw [piece?_of_stock stock, piece?_of_stock (s := written) (by simp), piece?_pieceCopies, same, bedUnit_putRequest]
    rfl

/-- The bed as a request finds it at its examination. -/
theorem examining_bed (s : State) (b : Fin 24) (addr : Nat) (code : BedCode) :
    (s.examining b addr code).bedUnit b = { s.bedUnit b with request := some ((s.bedUnit b).posted code) } ∧
    (s.examining b addr code).cureUnit b = s.cureUnit b ∧ (s.examining b addr code).steamBed b = s.steamBed b ∧
    (s.examining b addr code).mixes = s.mixes := by
  refine ⟨?_, ?_, ?_, ?_⟩
  · rw [State.examining, bedUnit_putRequest]; rfl
  · rw [State.examining, cureUnit_putRequest]; rfl
  · rw [State.examining, steamBed_putRequest]; rfl
  · rw [State.examining, (putRequest_keeps _ _ _).2.2.2.2.2.1]

/-- PREPARE, STAND and DETENSION are accepted without an examination (R8, R12, R15). -/
theorem examineBed_plain (b : Fin 24) (r : BedRequest) (record : List Word) (s : State)
    (h : r.code = .prepare ∨ r.code = .stand ∨ r.code = .detension) :
    examineBed b r record s = formResult b { r with result := .accepted } s := by
  rcases h with h | h | h <;> simp only [examineBed, h]

/-- A request that is accepted without an examination moves the bed to the state it leads to (R8, R12, R15). -/
theorem plain_row {s : State} {b : Fin 24} {addr : Nat} {code : BedCode} (ready : BedReady s b addr code)
    (h : code = .prepare ∨ code = .stand ∨ code = .detension) :
    let r : BedRequest := { (s.bedUnit b).posted code with result := .accepted }
    let new := r.leadsTo (s.bedUnit b)
    let t := finish (bedRequestRow b code s)
    BedAccepted t b code new ∧ t.cureUnit b = { s.cureUnit b with bedState := new } ∧
    ∃ u : State, u.bedUnit b = { s.bedUnit b with request := (u.bedUnit b).request } ∧ u.mixes = s.mixes ∧
      t.mixes = (setBedState b new u).mixes := by
  intro r new t
  obtain ⟨examined_unit, examined_cure, _, examined_mixes⟩ := examining_bed s b addr code
  have row : t = finish (formResult b r (s.examining b addr code)) := by
    simp only [t, r, bedRequestRow_calm ready, examineBed_plain b ((s.bedUnit b).posted code) _ _ h]
  have leads : r.leadsTo ((s.examining b addr code).bedUnit b) = new := leadsTo_putRequest r _ b _
  have plain : code ≠ .cast := by rcases h with rfl | rfl | rfl <;> decide
  obtain ⟨unit, cure, _, ⟨u, still, before, mixes⟩, _⟩ :=
    finish_accepted (examining_slotsFree ready.1 b addr code) (r := r) (b := b) rfl (Nat.zero_le 5) plain
  rw [leads, examined_unit, ← row] at unit
  rw [leads, examined_cure, ← row] at cure
  rw [leads, ← row] at mixes
  refine ⟨⟨by rw [unit], by rw [cure], _, by rw [unit], rfl, rfl, rfl⟩, cure, u, ?_, before.trans examined_mixes, mixes⟩
  rw [still, examined_unit]

/-- Settles O27: each request is accepted as it stands, and the count of the mix follows the bed state. -/
theorem prepareStandDetensionMoveTheBed : Obligations.PrepareStandDetensionMoveTheBed := by
  unfold Obligations.PrepareStandDetensionMoveTheBed
  intro s b addr
  refine ⟨fun ready => ?_, fun ready => ?_, fun ready => ?_⟩
  · have empty : (s.bedUnit b).state = .empty := by simpa [BedCode.states] using state_of_ready ready
    obtain ⟨accepted, cure, u, unit, before, mixes⟩ := plain_row ready (.inl rfl)
    refine ⟨_, rfl, accepted, cure, fun low high => ?_⟩
    have count := setBedState_leaves b .prepared u (by rw [unit]; exact empty) (by decide) (by rw [unit]; exact low)
      (by rw [unit]; exact high)
    rw [unit, mix_of_mixes before] at count
    rw [mix_of_mixes mixes]
    exact count
  · have cast : (s.bedUnit b).state = .cast := by simpa [BedCode.states] using state_of_ready ready
    obtain ⟨accepted, cure, u, unit, before, mixes⟩ := plain_row ready (.inr (.inl rfl))
    refine ⟨_, rfl, accepted, cure, mixes.trans ((setBedState_mixes b _ u ?_).trans before)⟩
    rw [unit]
    simp [cast, BedRequest.leadsTo, BedUnit.posted, newRequest]
  · have releasable : (s.bedUnit b).state = .releasable := by simpa [BedCode.states] using state_of_ready ready
    obtain ⟨accepted, cure, u, unit, before, mixes⟩ := plain_row ready (.inr (.inr rfl))
    refine ⟨_, rfl, accepted, cure, fun some_left => ?_, fun none_left low high => ?_⟩
    · refine mixes.trans ((setBedState_mixes b _ u ?_).trans before)
      rw [unit]
      simp [releasable, BedRequest.leadsTo, BedUnit.posted, newRequest, some_left]
    · have count := setBedState_returns b u (by rw [unit]; simp [releasable]) (by rw [unit]; exact low) (by rw [unit]; exact high)
      rw [unit, mix_of_mixes before] at count
      have leads : ({ (s.bedUnit b).posted .detension with result := .accepted } : BedRequest).leadsTo (s.bedUnit b) = .empty := by
        simp [BedRequest.leadsTo, BedUnit.posted, newRequest, none_left]
      rw [leads] at mixes
      rw [mix_of_mixes mixes]
      exact count

end Sys2Proof.Machine
end

section
/-! HOLD and RESUME (R13, R85), and the steam of a bed whose cure leaves or enters RUNNING (R105, R106). -/

namespace Sys2Proof.Machine

/-- Telling the Steam Allocator of a sub-state changes nothing else of the bed (R105). -/
@[simp] theorem setRunning_owners (b c : Fin 24) (running : Bool) (s : State) :
    (setRunning b running s).bedUnit c = s.bedUnit c ∧ (setRunning b running s).cureUnit c = s.cureUnit c := by
  simp only [setRunning, closeValve]
  split
  · simp
  · split <;> simp

/-- A bed that enters RUNNING (R105). -/
theorem setRunning_enters (b : Fin 24) (s : State) : ((setRunning b true s).steamBed b).running = true := by
  simp [setRunning]

/-- A bed that leaves RUNNING, or was not in it: its demand stands, and a valve that could be on is closed (R105, R106). -/
theorem setRunning_leaves (b : Fin 24) (s : State) :
    ((setRunning b false s).steamBed b).demand = (s.steamBed b).demand ∧
    ((setRunning b false s).steamBed b).running = false ∧
    ((s.steamBed b).running = true →
      ((setRunning b false s).steamBed b).valve = false ∧ ((setRunning b false s).steamBed b).closed = true) := by
  cases ran : (s.steamBed b).running <;> simp [setRunning, closeValve, ran]

/-- A context is put with the sub-state its flags give, and nothing else of the Bed Unit or the cure changes (R85). -/
theorem deriveSub_sets (b : Fin 24) (c : CureContext) (s : State) :
    (deriveSub b c s).bedUnit b = s.bedUnit b ∧
    (deriveSub b c s).cureUnit b = { s.cureUnit b with context := some { c with sub := c.derived } } := by
  simp only [deriveSub]
  split <;> simp [State.setContext]

/-- A sub-state that has changed from or to RUNNING is told to the Steam Allocator (R85, R105). -/
theorem deriveSub_changes (b : Fin 24) (c : CureContext) (s : State) (h : c.derived ≠ c.sub) :
    (deriveSub b c s).steamBed b =
      (setRunning b (decide (c.derived = .running)) (s.setContext b { c with sub := c.derived })).steamBed b := by
  simp only [deriveSub, if_neg h]

theorem cureHold_eq {b : Fin 24} {c : CureContext} {s : State} (h : (s.cureUnit b).context = some c) (held : Bool) :
    cureHold b held s = deriveSub b { c with held := held, duty := if held then 0 else c.duty } s := by
  simp only [cureHold, h]

/-- The request that puts a cure in HELD, or takes it out. -/
def holdCode (held : Bool) : BedCode := if held then .hold else .resume

/-- HOLD and RESUME are accepted as the cure's held flag is set or cleared (R13). -/
theorem examineBed_hold (b : Fin 24) (held : Bool) (r : BedRequest) (record : List Word) (s : State) (h : r.code = holdCode held) :
    examineBed b r record s = formResult b { r with result := .accepted } (cureHold b held s) := by
  cases held <;> simp only [examineBed, h, holdCode, if_true, Bool.false_eq_true, if_false]

/-- HOLD and RESUME in a calm part: the bed stays CURING, and its cure has the held flag and the sub-state that follows
(R13, R85). -/
theorem hold_row {s : State} {b : Fin 24} {addr : Nat} {held : Bool} (ready : BedReady s b addr (holdCode held))
    {c : CureContext} (context : (s.cureUnit b).context = some c) :
    let t := finish (bedRequestRow b (holdCode held) s)
    let flagged : CureContext := { c with held := held, duty := if held then 0 else c.duty }
    BedAccepted t b (holdCode held) .curing ∧ (t.cureUnit b).context = some { flagged with sub := flagged.derived } ∧
      t.steamBed b = (deriveSub b flagged (s.examining b addr (holdCode held))).steamBed b := by
  intro t flagged
  obtain ⟨examined_unit, examined_cure, examined_steam, _⟩ := examining_bed s b addr (holdCode held)
  have curing : (s.bedUnit b).state = .curing := by
    have states := state_of_ready ready
    cases held <;> simpa [BedCode.states, holdCode] using states
  have plain : holdCode held ≠ .cast := by cases held <;> decide
  have flags := cureHold_eq (examined_cure ▸ context) held
  obtain ⟨sub_unit, sub_cure⟩ := deriveSub_sets b flagged (s.examining b addr (holdCode held))
  have free : (deriveSub b flagged (s.examining b addr (holdCode held))).SlotsFree :=
    (examining_slotsFree ready.1 b addr (holdCode held)).congr (by simp) (by simp) (by simp) (by simp) (by simp)
  have row : t = finish (formResult b { (s.bedUnit b).posted (holdCode held) with result := .accepted }
      (deriveSub b flagged (s.examining b addr (holdCode held)))) := by
    simp only [t, bedRequestRow_calm ready]
    rw [examineBed_hold b held ((s.bedUnit b).posted (holdCode held)) _ _ rfl, flags]
  obtain ⟨unit, cure, steam, _⟩ := finish_accepted free (b := b)
    (r := { (s.bedUnit b).posted (holdCode held) with result := .accepted }) rfl (Nat.zero_le 5) plain
  have stays : ∀ u : BedUnit, u.state = .curing →
      ({ (s.bedUnit b).posted (holdCode held) with result := .accepted } : BedRequest).leadsTo u = .curing := by
    intro u state
    cases held <;> exact state
  rw [stays _ (by rw [sub_unit, examined_unit]; exact curing), ← row] at unit
  rw [stays _ (by rw [sub_unit, examined_unit]; exact curing), ← row, sub_cure] at cure
  rw [← row] at steam
  exact ⟨⟨by rw [unit], by rw [cure], _, by rw [unit], rfl, rfl, rfl⟩, by rw [cure], steam⟩

/-- Settles O28: the flags of the cure give its sub-state, and the Steam Allocator is told of a sub-state that changes. -/
theorem holdAndResumeSetTheSubState : Obligations.HoldAndResumeSetTheSubState := by
  unfold Obligations.HoldAndResumeSetTheSubState
  intro s b addr c context
  refine ⟨fun ready => ?_, fun ready => ?_⟩
  · have running : c.sub ≠ .held := by
      have legal := (bedVerdict_passes ready.2.2.1).2
      have curing : (s.bedUnit b).state = .curing := by simpa [BedCode.states] using state_of_ready ready
      simpa [curing, BedCode.legal, State.subState, context] using legal
    obtain ⟨accepted, held, steam⟩ := hold_row (held := true) ready context
    have changes := deriveSub_changes b { c with held := true, duty := 0 } (s.examining b addr .hold) (fun e => running e.symm)
    obtain ⟨demand, stopped, closed⟩ :=
      setRunning_leaves b ((s.examining b addr .hold).setContext b { c with held := true, duty := 0, sub := .held })
    have same : ((s.examining b addr .hold).setContext b { c with held := true, duty := 0, sub := .held }).steamBed b =
        s.steamBed b := by
      rw [State.setContext, steamBed_setCureUnit, (examining_bed s b addr .hold).2.2.1]
    rw [same] at demand closed
    have steam := steam.trans changes
    exact ⟨_, rfl, accepted, held, (congrArg SteamBed.demand steam).trans demand, (congrArg SteamBed.running steam).trans stopped,
      fun ran => ⟨(congrArg SteamBed.valve steam).trans (closed ran).1, (congrArg SteamBed.closed steam).trans (closed ran).2⟩⟩
  · obtain ⟨accepted, resumed, _⟩ := hold_row (held := false) ready context
    exact ⟨_, rfl, accepted, resumed⟩

end Sys2Proof.Machine
end

section
/-! START_CURE and END_CURE (R11, R14, R91, R92), and the take that END_CURE discards (R80). -/

namespace Sys2Proof.Machine

/-! ### The profile test (R76) -/

/-- The segment whose two words stand at a place of a bed record. -/
def segmentAt (record : List Word) (entries k : Nat) : Segment :=
  segmentOf (record.getD (entries + 2 * k) 0) (record.getD (entries + 2 * k + 1) 0)

theorem segmentsOf_record (record : List Word) (n entries : Nat) (h : entries + 2 * n ≤ record.length) :
    segmentsOf ((record.drop entries).take (2 * n)) = (List.range n).map (segmentAt record entries) := by
  induction n generalizing entries with
  | zero => rfl
  | succ n ih =>
    have first : entries < record.length := by omega
    have second : entries + 1 < record.length := by omega
    rw [List.drop_eq_getElem_cons first, List.drop_eq_getElem_cons second, show 2 * (n + 1) = 2 * n + 1 + 1 by omega,
      List.take_succ_cons, List.take_succ_cons, segmentsOf, ih (entries + 1 + 1) (by omega), List.range_succ_eq_map,
      List.map_cons, List.map_map]
    congr 1
    · simp [segmentAt, first, second]
    · refine List.map_congr_left fun k _ => ?_
      simp only [Function.comp_apply, segmentAt]
      congr 2 <;> omega

theorem profileTest_record (record : List Word) (header entries : Nat) (h : entries + 16 ≤ record.length) :
    profileTest (profileOf (record.getD header 0) (record.getD (header + 1) 0) ((record.drop entries).take 16)) =
      profileVerdict record header entries := by
  simp only [profileTest, profileVerdict, profileOf, segmentsOf_record record 8 entries h]
  split
  · rfl
  · next edges =>
    have within : min (record.getD header 0).toNat 8 = (record.getD header 0).toNat := by omega
    rw [← List.map_take, List.take_range, within, List.all_map, List.all_eq_not_any_not]
    have bad : ∀ k, (!(Segment.inRange ∘ segmentAt record entries) k) = decide
        (((record.getD (entries + 2 * k) 0).extractLsb' 0 16).toInt < -400 ∨
          700 < ((record.getD (entries + 2 * k) 0).extractLsb' 0 16).toInt ∨
          100 < ((record.getD (entries + 2 * k) 0).extractLsb' 16 8).toNat ∨
          4320 < ((record.getD (entries + 2 * k + 1) 0).extractLsb' 0 16).toNat ∨
          1 < ((record.getD (entries + 2 * k + 1) 0).extractLsb' 16 8).toNat) := by
      intro k
      rw [Bool.eq_iff_iff]
      simp only [Bool.not_eq_true', Function.comp_apply, Segment.inRange, decide_eq_false_iff_not,
        decide_eq_true_eq]
      simp only [segmentAt, segmentOf, lowSigned, bitsAt]
      omega
    simp only [bad]
    split <;> simp_all

/-! ### What starting and ending a cure set (R91, R92, R80) -/

/-- The context a cure starts with (R91). -/
def CureContext.started (profile : Profile) (airs : List Int) : CureContext :=
  { held := false, blind := false, overheat := false, sub := .running, segment := 1, phase := .moving,
    setpoint := meanDown airs, holdDone := 0, ramp := 0, duty := 0, ended := false, profile := profile }

theorem startCure_sets (b : Fin 24) (profile : Profile) (airs : List Int) (s : State) :
    (startCure b profile airs s).bedUnit b = s.bedUnit b ∧
    (startCure b profile airs s).cureUnit b = { s.cureUnit b with context := some (.started profile airs) } ∧
    ((startCure b profile airs s).steamBed b).running = true := by
  refine ⟨?_, ?_, setRunning_enters _ _⟩ <;> simp [startCure, State.setContext, CureContext.started]

/-- An alarm block of a bed lies beside what its other owners keep. -/
theorem setAlarm_bed_owners (b c : Fin 24) (a : AlarmBlock) (s : State) :
    (setAlarm (.bed b) a s).bedUnit c = s.bedUnit c ∧ (setAlarm (.bed b) a s).cureUnit c = s.cureUnit c ∧
    (setAlarm (.bed b) a s).steamBed c = s.steamBed c := by
  have beds : (setAlarm (.bed b) a s).beds = (s.setBed b { s.bed b with alarm := a }).beds := by simp [setAlarm, State.putAlarm]
  obtain ⟨unit, cure, steam, _⟩ := owners_of_beds beds c
  rw [unit, cure, steam]
  refine ⟨?_, ?_, ?_⟩
  · simp only [State.bedUnit, bed_setBed]
    split <;> simp_all
  · simp only [State.cureUnit, bed_setBed]
    split <;> simp_all
  · simp only [State.steamBed, bed_setBed]
    split <;> simp_all

theorem post_owners (kind : NoticeKind) (cls : SourceClass) (index : Nat) (detail : Word) (s : State) (c : Fin 24) :
    (post kind cls index detail s).bedUnit c = s.bedUnit c ∧ (post kind cls index detail s).cureUnit c = s.cureUnit c ∧
    (post kind cls index detail s).steamBed c = s.steamBed c := ⟨rfl, rfl, rfl⟩

@[simp] theorem conditionGone_owners (b c : Fin 24) (bit : Nat) (s : State) :
    (conditionGone (.bed b) bit s).bedUnit c = s.bedUnit c ∧ (conditionGone (.bed b) bit s).cureUnit c = s.cureUnit c ∧
    (conditionGone (.bed b) bit s).steamBed c = s.steamBed c := by
  simp only [conditionGone]
  split
  · split
    · exact setAlarm_bed_owners b c _ s
    · exact setAlarm_bed_owners b c _ s
  · exact ⟨rfl, rfl, rfl⟩

/-- A condition that is not in the set cannot go (R179). -/
theorem conditionGone_absent (r : AlarmRef) (bit : Nat) (s : State) (h : (s.alarm r).conditions = 0) :
    conditionGone r bit s = s := by
  simp [conditionGone, h]

/-- The cure is dropped, and the bed's demand with it (R92). -/
theorem endCure_sets (b : Fin 24) (s : State) :
    (endCure b s).bedUnit b = s.bedUnit b ∧ (endCure b s).cureUnit b = { s.cureUnit b with context := none } ∧
    ((endCure b s).steamBed b).demand = 0 := by
  simp [endCure, cureEnded]

/-- A bed without a condition posts nothing as its cure is dropped, and hands no refresh (R92, R179). -/
theorem endCure_quiet {b : Fin 24} {s : State} (quiet : (s.bed b).alarm.conditions = 0) :
    (endCure b s).path = s.path ∧ (endCure b s).notices = s.notices := by
  have told : ((cureEnded b (setRunning b false (s.setCureUnit b { s.cureUnit b with context := none }))).bed b).alarm =
      (s.bed b).alarm ∧
      (cureEnded b (setRunning b false (s.setCureUnit b { s.cureUnit b with context := none }))).notices = s.notices := by
    simp only [cureEnded, setRunning, closeValve, Bool.false_eq_true, if_false]
    split <;> simp [State.setSteamBed, State.setCureUnit]
  have absent : ((cureEnded b (setRunning b false (s.setCureUnit b { s.cureUnit b with context := none }))).alarm
      (.bed b)).conditions = 0 := (congrArg AlarmBlock.conditions told.1).trans quiet
  simp only [endCure, conditionGone_absent _ _ _ absent]
  exact ⟨by simp, told.2⟩

/-- A take at a stage that END_CURE discards (R80). -/
theorem discardTake_discardable {b : Fin 24} {s : State} (h : TakeDiscardable (s.cureUnit b).take) :
    discardTake b s = postBed .profileRefused b (.ofCount Code.discarded.toNat) (s.setTake b .discarding) := by
  rcases h with h | h | ⟨verdict, pending, h⟩ <;> simp only [discardTake, h]

/-- What the end of a cure makes of a take (R80, R92). -/
def TakeStage.discarded : TakeStage → TakeStage
  | .waitingSegmentEnd => .discarding
  | .readInFlight => .discarding
  | .formed _ _ => .discarding
  | t => t

theorem discarded_of_discardable {t : TakeStage} (h : TakeDiscardable t) : t.discarded = .discarding := by
  rcases h with rfl | rfl | ⟨verdict, pending, rfl⟩ <;> rfl

/-- A discarded take stays pending, and nothing else of the bed changes (R80). -/
theorem discardTake_sets (b : Fin 24) (s : State) :
    (discardTake b s).bedUnit b = s.bedUnit b ∧
    (discardTake b s).cureUnit b = { s.cureUnit b with take := (s.cureUnit b).take.discarded } ∧
    (discardTake b s).steamBed b = s.steamBed b := by
  by_cases h : TakeDiscardable (s.cureUnit b).take
  · rw [discardTake_discardable h, discarded_of_discardable h]
    refine ⟨?_, ?_, ?_⟩
    · exact bedUnit_setCureUnit s b b _
    · exact (cureUnit_setCureUnit s b b _).trans (if_pos rfl)
    · exact steamBed_setCureUnit s b b _
  · have kept : discardTake b s = s ∧ (s.cureUnit b).take.discarded = (s.cureUnit b).take := by
      cases take : (s.cureUnit b).take <;> simp_all [discardTake, TakeStage.discarded, TakeDiscardable]
    rw [kept.1, kept.2]
    exact ⟨rfl, rfl, rfl⟩

/-! ### The slots stay free over a refresh (R40) -/

theorem joinQueue_groups (r : Region) (index : Nat) (words : List (Nat × Word)) (q : List OwnItem) :
    (joinQueue r index words q).filter OwnItem.isGroup = q.filter OwnItem.isGroup := by
  induction q with
  | nil => rfl
  | cons item rest ih =>
    cases item with
    | refresh x =>
      simp only [joinQueue]
      split
      · rfl
      · simpa [OwnItem.isGroup] using ih
    | group g => simp only [joinQueue, List.filter_cons, ih]
    | read rd => simp only [joinQueue, List.filter_cons, ih]

theorem State.SlotsFree.refresh {s : State} (h : s.SlotsFree) (r : Region) (index : Nat) (words : List (Nat × Word)) :
    (refresh r index words s).SlotsFree := by
  simp only [Machine.refresh]
  split
  · exact h
  · exact { h with queue := (joinQueue_groups _ _ _ _).trans h.queue }

theorem State.SlotsFree.setAlarm_bed {s : State} (h : s.SlotsFree) (b : Fin 24) (a : AlarmBlock) :
    (setAlarm (.bed b) a s).SlotsFree := by
  have put : (s.putAlarm (.bed b) a).SlotsFree :=
    h.congr (by simp [State.putAlarm]) (by simp [State.putAlarm]) (by simp [State.putAlarm]) (by simp [State.putAlarm])
      (by simp [State.putAlarm])
  exact put.refresh _ _ _

theorem State.SlotsFree.conditionGone_bed {s : State} (h : s.SlotsFree) (b : Fin 24) (bit : Nat) :
    (conditionGone (.bed b) bit s).SlotsFree := by
  simp only [conditionGone]
  split
  · split
    · exact (h.setAlarm_bed b _).congr rfl rfl rfl rfl rfl
    · exact h.setAlarm_bed b _
  · exact h

theorem State.SlotsFree.endCure {s : State} (h : s.SlotsFree) (b : Fin 24) : (endCure b s).SlotsFree := by
  have told : (cureEnded b (setRunning b false (s.setCureUnit b { s.cureUnit b with context := none }))).SlotsFree :=
    h.congr (by simp) (by simp) (by simp) (by simp) (by simp)
  exact (told.conditionGone_bed b _).conditionGone_bed b _

theorem State.SlotsFree.discardTake {s : State} (h : s.SlotsFree) (b : Fin 24) : (discardTake b s).SlotsFree :=
  h.congr (by simp) (by simp) (by simp) (by simp) (by simp)

end Sys2Proof.Machine
end

section
/-! The rows START_CURE and END_CURE, and what follows a discarded take (R11, R14, R80). -/

namespace Sys2Proof.Machine

/-- A refused request, its result formed with the slots free: what is kept for the bed stands, with the result on its way. -/
theorem finish_refused {b : Fin 24} {r : BedRequest} {s : State} (free : s.SlotsFree) (refused : r.result ≠ .accepted) :
    (finish (formResult b r s)).bedUnit b = { s.bedUnit b with request := some { r with stage := .resultInFlight } } := by
  have request : ((s.putRequest b (some { r with stage := .waitingSlot })).bedUnit b).request =
      some { r with stage := .waitingSlot } := by simp
  have settled := finish_formResult r free (b := b)
  rw [bedRequestGroup_refused request rfl refused] at settled
  rw [(owners_of_beds (settledAs_owners settled).1 b).1]
  simp

/-- The checks of START_CURE in their order (R11). -/
theorem cureVerdict_eq (s : State) (b : Fin 24) (record : List Word) :
    s.cureVerdict b record =
      if profileTest (activeProfile record) ≠ .none then profileTest (activeProfile record)
      else if (s.onlineFor b).length < (record.getD 16 0).toNat then .probes else .accepted := by
  simp only [State.cureVerdict]
  split
  · next good => simp [good]
  · next bad => rw [if_pos bad]

theorem examineBed_startCure (b : Fin 24) (r : BedRequest) (record : List Word) (s : State) (h : r.code = .startCure) :
    examineBed b r record s =
      if s.cureVerdict b record = .accepted then
        formResult b { r with result := .accepted } (startCure b (activeProfile record) ((s.onlineFor b).map (·.air)) s)
      else formResult b { r with result := s.cureVerdict b record } s := by
  simp only [examineBed, h]
  split
  · next accepted => rw [if_pos accepted]
  · next refused => rw [if_neg refused]

/-- START_CURE in a calm part whose checks all pass (R11, R91). -/
theorem startCure_row {s : State} {b : Fin 24} {addr : Nat} (ready : BedReady s b addr .startCure)
    (accepted : s.cureVerdict b (intakeRecord s b addr .startCure) = .accepted) :
    let t := finish (bedRequestRow b .startCure s)
    BedAccepted t b .startCure .curing ∧ (t.cureUnit b).maturity = (s.cureUnit b).maturity ∧ (t.steamBed b).running = true ∧
      (t.cureUnit b).context =
        some (.started (activeProfile (intakeRecord s b addr .startCure)) ((s.onlineFor b).map (·.air))) := by
  intro t
  obtain ⟨examined_unit, examined_cure, _, _⟩ := examining_bed s b addr .startCure
  obtain ⟨started_unit, started_cure, started_steam⟩ := startCure_sets b (activeProfile (intakeRecord s b addr .startCure))
    ((s.onlineFor b).map (·.air)) (s.examining b addr .startCure)
  have free := (examining_slotsFree ready.1 b addr .startCure).congr (t := startCure b
    (activeProfile (intakeRecord s b addr .startCure)) ((s.onlineFor b).map (·.air)) (s.examining b addr .startCure))
    (by simp) (by simp) (by simp) (by simp) (by simp)
  have row : t = finish (formResult b { (s.bedUnit b).posted .startCure with result := .accepted } (startCure b
      (activeProfile (intakeRecord s b addr .startCure)) ((s.onlineFor b).map (·.air)) (s.examining b addr .startCure))) := by
    simp only [t, bedRequestRow_calm ready]
    rw [examineBed_startCure b ((s.bedUnit b).posted .startCure) _ _ rfl]
    exact congrArg finish (if_pos accepted)
  obtain ⟨unit, cure, steam, _⟩ := finish_accepted free (b := b)
    (r := { (s.bedUnit b).posted .startCure with result := .accepted }) rfl (Nat.zero_le 5) nofun
  rw [← row] at unit
  rw [← row, started_cure, examined_cure] at cure
  rw [← row] at steam
  exact ⟨⟨by rw [unit]; rfl, by rw [cure]; rfl, _, by rw [unit], rfl, rfl, rfl⟩, by rw [cure], by rw [steam]; exact started_steam,
    by rw [cure]⟩

/-- START_CURE in a calm part with a check that fails: the bed stays (R11). -/
theorem startCure_refused_row {s : State} {b : Fin 24} {addr : Nat} (ready : BedReady s b addr .startCure)
    (refused : s.cureVerdict b (intakeRecord s b addr .startCure) ≠ .accepted) :
    (finish (bedRequestRow b .startCure s)).bedUnit b = { s.bedUnit b with
      request := some { (s.bedUnit b).posted .startCure with
        result := s.cureVerdict b (intakeRecord s b addr .startCure), stage := .resultInFlight } } := by
  have row : finish (bedRequestRow b .startCure s) = finish (formResult b { (s.bedUnit b).posted .startCure with
      result := s.cureVerdict b (intakeRecord s b addr .startCure) } (s.examining b addr .startCure)) := by
    rw [bedRequestRow_calm ready, examineBed_startCure b ((s.bedUnit b).posted .startCure) _ _ rfl]
    exact congrArg finish (if_neg refused)
  rw [row, finish_refused (examining_slotsFree ready.1 b addr .startCure) refused, (examining_bed s b addr .startCure).1]

/-- The state to which END_CURE leads a bed: by its maturity (R14). -/
def State.curedState (s : State) (b : Fin 24) : BedState :=
  if (s.mix (s.bedUnit b).mix).release ≤ (s.cureUnit b).maturity then .releasable else .standing

theorem examineBed_endCure (b : Fin 24) (r : BedRequest) (record : List Word) (s : State) (h : r.code = .endCure) :
    examineBed b r record s =
      formResult b { r with result := .accepted, target := s.curedState b } (discardTake b (endCure b s)) := by
  simp only [examineBed, h, State.releaseReached, decide_eq_true_eq]
  rfl

theorem examining_curedState (s : State) (b : Fin 24) (addr : Nat) (code : BedCode) :
    (s.examining b addr code).curedState b = s.curedState b := by
  obtain ⟨unit, cure, _, mixes⟩ := examining_bed s b addr code
  simp only [State.curedState, unit, cure, mix_of_mixes mixes]

/-- END_CURE in a calm part: what the row leaves before its result is settled (R14, R80). -/
theorem endCure_formed {s : State} {b : Fin 24} {addr : Nat} (ready : BedReady s b addr .endCure) :
    bedRequestRow b .endCure s =
      formResult b { (s.bedUnit b).posted .endCure with result := .accepted, target := s.curedState b }
        (discardTake b (endCure b (s.examining b addr .endCure))) := by
  rw [bedRequestRow_calm ready, examineBed_endCure b ((s.bedUnit b).posted .endCure) _ _ rfl, examining_curedState]

/-- END_CURE in a calm part (R14, R80, R92): the cure is dropped with its demand, and the maturity decides the bed state. -/
theorem endCure_row {s : State} {b : Fin 24} {addr : Nat} (ready : BedReady s b addr .endCure) :
    let t := finish (bedRequestRow b .endCure s)
    BedAccepted t b .endCure (s.curedState b) ∧ (t.steamBed b).demand = 0 ∧
      t.cureUnit b = { s.cureUnit b with
        context := none, take := (s.cureUnit b).take.discarded, bedState := s.curedState b } := by
  intro t
  obtain ⟨_, examined_cure, _, _⟩ := examining_bed s b addr .endCure
  obtain ⟨_, ended_cure, ended_demand⟩ := endCure_sets b (s.examining b addr .endCure)
  obtain ⟨_, discarded_cure, discarded_steam⟩ := discardTake_sets b (endCure b (s.examining b addr .endCure))
  have free := ((examining_slotsFree ready.1 b addr .endCure).endCure b).discardTake b
  obtain ⟨unit, cure, steam, _⟩ := finish_accepted free (b := b)
    (r := { (s.bedUnit b).posted .endCure with result := .accepted, target := s.curedState b }) rfl (Nat.zero_le 5) nofun
  rw [← endCure_formed ready] at unit cure steam
  rw [discarded_cure, ended_cure, examined_cure] at cure
  exact ⟨⟨by rw [unit]; rfl, by rw [cure]; rfl, _, by rw [unit], rfl, rfl, rfl⟩, by rw [steam, discarded_steam]; exact ended_demand,
    cure⟩

theorem alarm_putRequest (s : State) (b c : Fin 24) (r : Option BedRequest) : ((s.putRequest b r).bed c).alarm = (s.bed c).alarm := by
  simp only [State.putRequest, State.setBedUnit, bed_setBed]
  split <;> simp_all

/-- END_CURE in a calm part that discards a take: the notice is posted within the command (R80). -/
theorem endCure_posts {s : State} {b : Fin 24} {addr : Nat} (ready : BedReady s b addr .endCure)
    (take : TakeDiscardable (s.cureUnit b).take) (quiet : (s.bed b).alarm.conditions = 0) :
    (bedRequestRow b .endCure s).path.outbox = [.bedRequest b] ∧
    (bedRequestRow b .endCure s).notices = s.notices.place true
      ⟨.profileRefused, .bed, b.val + 1, .ofCount Code.discarded.toNat, s.dir.worksTime⟩ := by
  have outbox : (s.examining b addr .endCure).path.outbox = [] := (examining_slotsFree ready.1 b addr .endCure).outbox
  have lifecycle : s.dir.lifecycle = .running := ready.1.1
  have no_condition : ((s.examining b addr .endCure).bed b).alarm.conditions = 0 :=
    (congrArg AlarmBlock.conditions (alarm_putRequest _ b b _)).trans quiet
  obtain ⟨path, notices⟩ := endCure_quiet no_condition
  have pending : TakeDiscardable ((endCure b (s.examining b addr .endCure)).cureUnit b).take := by
    rw [(endCure_sets b _).2.1, (examining_bed s b addr .endCure).2.1]
    exact take
  rw [endCure_formed ready, (formResult_sets b _ _).2.1, (formResult_sets b _ _).2.2]
  refine ⟨?_, ?_⟩
  · simp [path, outbox]
  · rw [discardTake_discardable pending]
    simp only [postBed, post, State.running, setTake_keeps, notices, endCure_keeps]
    simp [State.examining, lifecycle]

/-- The last group of an END_CURE carries the end of a discarded take (R80). -/
theorem endCure_group {s : State} {b : Fin 24} {r : BedRequest} (request : (s.bedUnit b).request = some r)
    (stage : r.stage = .waitingSlot) (code : r.code = .endCure) (accepted : r.result = .accepted) (no_pieces : r.toWrite = [])
    (curing : (s.bedUnit b).state = .curing) (target : r.target ∈ [.releasable, .standing]) :
    ∃ after, form (.bedRequest b) s = (after, some ([recordSpan .bed b.val
         ([(17, 0), (30, resultWord 7 .accepted), (18, .ofCount r.target.toNat), (26, 0)] ++
           (if (s.cureUnit b).take = .discarding then [(52, 0), (53, .ofCount Code.discarded.toNat)] else []))],
         .bedResult b [] (some (.curing, r.target)))) ∧
       (after.bedUnit b).state = r.target ∧ (after.cureUnit b).take = (s.cureUnit b).take := by
  have leads : r.leadsTo (s.bedUnit b) = r.target := by simp only [BedRequest.leadsTo, code]
  have change : stateChange BedState.curing r.target = some (.curing, r.target) := by
    have left : BedState.curing ≠ r.target := by rintro same; simp [← same] at target
    simp only [stateChange, if_neg left]
  have discard : discardWords (s.cureUnit b).take =
      if (s.cureUnit b).take = .discarding then [(52, 0), (53, .ofCount Code.discarded.toNat)] else [] := by
    cases take : (s.cureUnit b).take <;> simp [discardWords]
  have group := bedRequestGroup_last request stage accepted (by simp [no_pieces, runsOf])
  dsimp only at group
  rw [acceptBed_plain b r _ _ (by rw [code]; decide)] at group
  simp only [leads, no_pieces, pieceCopies_nil, accepted, code, curing, change, acceptedWords, discard, runsOf,
    pieceSpans_nil, ite_self, List.nil_append] at group
  obtain ⟨unit, cure, _⟩ := setBedState_bed b r.target s
  refine ⟨_, group, ?_, ?_⟩
  · simp [unit]
  · simp [cure]

/-! ### Completions and returned reads (R39, R41) -/

/-- With nobody on the slot waiting list a freed slot is handed to nobody (R38). -/
theorem handSlot_nobody {s : State} (h : s.path.slotWait = []) : handSlot s = s := by
  simp only [handSlot, h, List.length_nil, handSlots]

/-- A group other than a twin copy completes by what its owner does, with nobody waiting for its slot (R38, R39). -/
theorem exec_groupComplete {s v : State} {g : Group} {rest : List Group} (answered : s.path.answered = g :: rest)
    (own : g.completion ≠ .twin) (done : groupDone g.completion (s.withPath { s.path with answered := rest }) = v)
    (wait : v.path.slotWait = []) : exec .commitGroupComplete s = .next (finish v) := by
  have complete : groupComplete s = v := by
    simp only [groupComplete, answered, if_neg own, done]
    exact handSlot_nobody wait
  simp only [exec, execCommitGroupComplete, answer, complete]

theorem owners_withPath (s : State) (p : PathUnit) (b : Fin 24) :
    (s.withPath p).bedUnit b = s.bedUnit b ∧ (s.withPath p).cureUnit b = s.cureUnit b := ⟨rfl, rfl⟩

/-- A discarded take ends with the group that wrote its TAKE word, and nothing else changes (R80). -/
theorem discardDone_sets (b : Fin 24) (s : State) :
    (discardDone b s).bedUnit b = s.bedUnit b ∧
    ((s.cureUnit b).take = .discarding → ((discardDone b s).cureUnit b).take = .none) := by
  simp only [discardDone]
  split <;> simp_all [State.setTake]

/-- The part as a result group has completed, before the owner's next events are handed: the freed pieces are counted, the
change of state is posted, and the request has ended (R4, R6, R16). -/
def State.resultEnded (s : State) (b : Fin 24) (freed : List Nat) (change : Option (BedState × BedState)) : State :=
  (discardDone b (postBedState b change (piecesFreed freed s))).putRequest b none

theorem resultEnded_keeps (s : State) (b : Fin 24) (freed : List Nat) (change : Option (BedState × BedState)) :
    (s.resultEnded b freed change).path = s.path ∧
    (s.resultEnded b freed change).bedUnit b = { s.bedUnit b with request := none } ∧
    ((s.cureUnit b).take = .discarding → ((s.resultEnded b freed change).cureUnit b).take = .none) := by
  obtain ⟨unit, cure, _, _⟩ := owners_of_beds (s := s) (t := postBedState b change (piecesFreed freed s)) (by simp) b
  obtain ⟨done_unit, done_take⟩ := discardDone_sets b (postBedState b change (piecesFreed freed s))
  refine ⟨by simp [State.resultEnded], ?_, fun take => ?_⟩
  · rw [State.resultEnded, bedUnit_putRequest, done_unit, unit]
  · rw [State.resultEnded, cureUnit_putRequest]
    exact done_take (by rw [cure]; exact take)

/-- The completion of a result group ends its request; one that was not accepted posts its result; and the deferred events are
handed (R6, R7). -/
theorem bedResultDone_eq {b : Fin 24} {s : State} {r : BedRequest} (request : (s.bedUnit b).request = some r)
    (freed : List Nat) (change : Option (BedState × BedState)) :
    let told := if r.result = .accepted then s.resultEnded b freed change
      else postBed .bedResult b (detail2 r.code.toNat r.result.toNat) (s.resultEnded b freed change)
    ∃ jobs, bedResultDone b freed change s = told.withPath { told.path with outbox := told.path.outbox ++ jobs } := by
  have unit : (discardDone b (postBedState b change (piecesFreed freed s))).bedUnit b = s.bedUnit b := by
    rw [(discardDone_sets b _).1, (owners_of_beds (s := s) (by simp) b).1]
  have still : ((discardDone b (postBedState b change (piecesFreed freed s))).bedUnit b).request = some r := by
    rw [unit, request]
  intro told
  have done : bedResultDone b freed change s = if (told.bedUnit b).deferred = [] then told else handJob (.bedEvent b) told := by
    simp only [bedResultDone, still]
    rfl
  by_cases idle : (told.bedUnit b).deferred = []
  · refine ⟨[], ?_⟩
    rw [done, if_pos idle, List.append_nil]
    rfl
  · refine ⟨[.bedEvent b], ?_⟩
    rw [done, if_neg idle]
    rfl

/-- What the completion of a result group leaves: the request ended, a discarded take ended, the freed pieces counted, and the
path as it was but for the events handed (R6, R7, R16, R80). -/
theorem bedResultDone_sets {b : Fin 24} {s : State} {r : BedRequest} (request : (s.bedUnit b).request = some r)
    (freed : List Nat) (change : Option (BedState × BedState)) :
    let u := bedResultDone b freed change s
    u.bedUnit b = { s.bedUnit b with request := none } ∧
    ((s.cureUnit b).take = .discarding → (u.cureUnit b).take = .none) ∧
    u.path.slotWait = s.path.slotWait ∧ u.path.answered = s.path.answered ∧
    u.mixes = (piecesFreed freed s).mixes ∧ u.stock = (piecesFreed freed s).stock ∧
    u.freeCount = (piecesFreed freed s).freeCount ∧
    (r.result = .accepted → u.notices = (s.resultEnded b freed change).notices) := by
  intro u
  obtain ⟨jobs, done⟩ := bedResultDone_eq request freed change
  obtain ⟨path, unit, take⟩ := resultEnded_keeps s b freed change
  have wait : (s.resultEnded b freed change).path.slotWait = s.path.slotWait := by rw [path]
  have answered : (s.resultEnded b freed change).path.answered = s.path.answered := by rw [path]
  have ended : (s.resultEnded b freed change).mixes = (piecesFreed freed s).mixes ∧
      (s.resultEnded b freed change).stock = (piecesFreed freed s).stock ∧
      (s.resultEnded b freed change).freeCount = (piecesFreed freed s).freeCount := by
    simp [State.resultEnded]
  by_cases accepted : r.result = .accepted
  · simp only [if_pos accepted] at done
    simp only [u, done]
    exact ⟨unit, take, wait, answered, ended.1, ended.2.1, ended.2.2, fun _ => rfl⟩
  · simp only [if_neg accepted] at done
    simp only [u, done]
    exact ⟨unit, take, wait, answered, ended.1, ended.2.1, ended.2.2,
      fun h => absurd h accepted⟩

/-- Settles O29: the two profile tests are one test at two places of the record; START_CURE and END_CURE are rows of a calm
part; and a discarded take is carried from END_CURE to the completion of its result group. -/
theorem cureStartsAndEnds : Obligations.CureStartsAndEnds := by
  unfold Obligations.CureStartsAndEnds
  refine ⟨fun record length => ?_, fun s b addr ready => ?_, fun s b addr ready take => ?_, fun s b addr ready take => ?_,
    fun s b r request stage code accepted no_pieces curing target =>
      endCure_group request stage code accepted no_pieces curing target,
    fun s b g rest change r answered wait completion request take => ?_,
    fun s b rd data k rest returned purpose take => ?_⟩
  · exact ⟨profileTest_record record 32 34 (by omega), profileTest_record record 50 54 (by omega)⟩
  · intro record verdict
    have same : s.cureVerdict b record = verdict := cureVerdict_eq s b record
    refine ⟨fun accepted => ?_, fun refused => ?_⟩
    · obtain ⟨moved, maturity, steam, context⟩ := startCure_row ready (same.trans accepted)
      exact ⟨_, rfl, moved, maturity, steam, context⟩
    · have unit := startCure_refused_row ready (fun accepted => refused (same.symm.trans accepted))
      exact ⟨_, rfl, by rw [unit], _, by rw [unit], rfl, same⟩
  · obtain ⟨moved, demand, cure⟩ := endCure_row ready
    exact ⟨_, rfl, by rw [cure], moved, by rw [cure], demand⟩
  · obtain ⟨moved, _, cure⟩ := endCure_row ready
    refine ⟨⟨_, rfl, by rw [cure], ?_, moved⟩, fun quiet => ?_⟩
    · rw [cure]
      exact discarded_of_discardable take
    · obtain ⟨outbox, notices⟩ := endCure_posts ready take quiet
      exact ⟨_, rfl, outbox, notices⟩
  · obtain ⟨_, ends, still, _⟩ := bedResultDone_sets (s := s.withPath { s.path with answered := rest }) request [] change
    exact ⟨_, exec_groupComplete answered (by rw [completion]; nofun) (by rw [completion]; rfl) (still.trans wait), ends take⟩
  · have examined : ownReadDone s = s.withPath { s.path with returned := rest } := by
      simp only [ownReadDone, returned, handRead, purpose, takeExamined, (owners_withPath s _ b).2, take]
    refine ⟨s.withPath { s.path with returned := rest }, ?_, rfl, rfl, rfl, rfl⟩
    simp only [exec, execOwnReadDone, answer, examined]

end Sys2Proof.Machine
end

section
/-! CAST (R5, R9): the pieces it sets aside, and the groups that make them. -/

namespace Sys2Proof.Machine

/-! ### The lowest-numbered FREE pieces (R9, R112) -/

/-- Whether a piece is there and FREE. -/
def State.isFree (s : State) (n : Nat) : Bool := (s.piece? n).any (fun p => decide (p.state = .free))

/-- The entries of a list that meet a test, by their places. -/
theorem indexed_filter_places {α : Type} (test : α → Bool) (xs : List α) (i : Nat) :
    ((indexed i xs).filter (fun x => test x.2)).map (·.1) =
      (List.range' i xs.length).filter (fun n => (xs[n - i]?).any test) := by
  induction xs generalizing i with
  | nil => rfl
  | cons x xs ih =>
    have behind : (List.range' (i + 1) xs.length).filter (fun n => ((x :: xs)[n - i]?).any test) =
        (List.range' (i + 1) xs.length).filter (fun n => (xs[n - (i + 1)]?).any test) := by
      refine List.filter_congr fun n member => ?_
      obtain ⟨low, _⟩ := List.mem_range'_1.1 member
      rw [show n - i = n - (i + 1) + 1 by omega, List.getElem?_cons_succ]
    simp only [indexed, List.length_cons, List.range'_succ, List.filter_cons, behind, Nat.sub_self, List.getElem?_cons_zero,
      Option.any_some, ← ih]
    split <;> rfl

/-- The FREE pieces in number order, as many as are asked for. -/
theorem freePieces_eq (s : State) (k : Nat) :
    s.freePieces k = ((List.range (s.stock.pieces.length + 1)).filter s.isFree).take k := by
  have none_zero : s.isFree 0 = false := rfl
  have places : (List.range' 1 s.stock.pieces.length).filter (fun n => (s.stock.pieces[n - 1]?).any
      (fun p => decide (p.state = .free))) = (List.range' 1 s.stock.pieces.length).filter s.isFree := by
    refine List.filter_congr fun n member => ?_
    have there : n ≠ 0 := by
      obtain ⟨low, _⟩ := List.mem_range'_1.1 member
      omega
    simp only [State.isFree, State.piece?, if_neg there]
  rw [State.freePieces, indexed_filter_places (fun p : Piece => decide (p.state = .free)), places, List.range_eq_range',
    List.range'_succ, List.filter_cons, none_zero]
  rfl

/-- Of the numbers below a bound that meet a test, the first `k` are those with fewer than `k` such numbers below them. -/
theorem mem_take_filter_range (test : Nat → Bool) (k bound n : Nat) :
    n ∈ ((List.range bound).filter test).take k ↔
      n < bound ∧ test n = true ∧ ((List.range n).filter test).length < k := by
  induction bound with
  | zero => simp
  | succ bound ih =>
    rw [List.range_succ, List.filter_append, List.take_append, List.mem_append, ih]
    by_cases last : n = bound
    · subst last
      have one : n ∈ [n].take (k - ((List.range n).filter test).length) ↔ ((List.range n).filter test).length < k := by
        rcases room : k - ((List.range n).filter test).length with _ | j
        · simp only [List.take_zero, List.not_mem_nil, false_iff]
          omega
        · simp only [List.take_succ_cons, List.take_nil, List.mem_singleton, true_iff]
          omega
      cases hit : test n <;> simp [hit, one]
    · have smaller : n < bound + 1 ↔ n < bound := by omega
      have other : n ∉ (([bound] : List Nat).filter test).take (k - ((List.range bound).filter test).length) := fun h =>
        last (List.mem_singleton.1 (List.mem_filter.1 (List.mem_of_mem_take h)).1)
      simp [smaller, other]

/-- The pieces a CAST sets aside: FREE, with fewer FREE pieces below them than it asks for (R9). -/
theorem mem_freePieces (s : State) (k n : Nat) :
    n ∈ s.freePieces k ↔ s.isFree n = true ∧ ((List.range n).filter s.isFree).length < k := by
  rw [freePieces_eq, mem_take_filter_range]
  refine and_iff_right_of_imp fun ⟨free, _⟩ => Decidable.byContradiction fun past => ?_
  have none : s.piece? n = none := by
    simp only [State.piece?, List.getElem?_eq_none (show s.stock.pieces.length ≤ n - 1 by omega), ite_self]
  simp [State.isFree, none] at free

/-- They stand in number order (R9). -/
theorem freePieces_rising (s : State) (k : Nat) : (s.freePieces k).Pairwise (· < ·) := by
  rw [freePieces_eq]
  exact (List.pairwise_lt_range.sublist List.filter_sublist).sublist (List.take_sublist _ _)

/-! ### The row (R5, R9) -/

/-- CAST in a calm part: what the row leaves before its result is settled (R9). -/
theorem cast_formed {s : State} {b : Fin 24} {addr : Nat} (ready : BedReady s b addr .cast) :
    bedRequestRow b .cast s = formResult b
      { (s.bedUnit b).posted .cast with
        result := .accepted, pieces := s.freePieces (s.bedUnit b).pieceCount, toWrite := s.freePieces (s.bedUnit b).pieceCount,
        plan := ((intakeRecord s b addr .cast).drop 2).take 12, time := s.dir.worksTime }
      (reservePieces (s.freePieces (s.bedUnit b).pieceCount) (s.examining b addr .cast)) := by
  rw [bedRequestRow_calm ready]
  rfl

theorem cast_row {s : State} {b : Fin 24} {addr : Nat} (ready : BedReady s b addr .cast) :
    ∃ r, (bedRequestRow b .cast s).freeCount = s.freeCount - (s.bedUnit b).pieceCount ∧
      ((bedRequestRow b .cast s).bedUnit b).request = some r ∧ (bedRequestRow b .cast s).path.outbox = [.bedRequest b] ∧
      (bedRequestRow b .cast s).mem = setWord s.mem addr 2 ∧ r.code = .cast ∧ r.result = .accepted ∧ r.stage = .waitingSlot ∧
      r.time = s.dir.worksTime ∧ r.pieces = s.freePieces (s.bedUnit b).pieceCount ∧ r.toWrite = r.pieces ∧
      r.plan = ((intakeRecord s b addr .cast).drop 2).take 12 := by
  have outbox : (s.examining b addr .cast).path.outbox = [] := (examining_slotsFree ready.1 b addr .cast).outbox
  obtain ⟨unit, path, _⟩ := formResult_sets b
    { (s.bedUnit b).posted .cast with
        result := .accepted, pieces := s.freePieces (s.bedUnit b).pieceCount, toWrite := s.freePieces (s.bedUnit b).pieceCount,
        plan := ((intakeRecord s b addr .cast).drop 2).take 12, time := s.dir.worksTime }
    (reservePieces (s.freePieces (s.bedUnit b).pieceCount) (s.examining b addr .cast))
  rw [← cast_formed ready] at unit path
  refine ⟨_, ?_, by rw [unit], ?_, ?_, rfl, rfl, rfl, rfl, rfl, rfl, rfl⟩
  · rw [cast_formed ready]
    simp [State.examining]
  · rw [path]
    simp [outbox]
  · rw [cast_formed ready]
    simp [State.examining, BedCode.toNat]

/-! ### The groups (R9, R10) -/

/-- What the hand-over of a CAST's last group leaves of its bed, and of the count of its mix (R1, R4, R9). -/
theorem acceptBed_cast {b : Fin 24} {r : BedRequest} {s : State} (code : r.code = .cast) (prepared : (s.bedUnit b).state = .prepared)
    (low : 1 ≤ (s.bedUnit b).mix) (high : (s.bedUnit b).mix ≤ 16) :
    let t := acceptBed b r .cast s
    t.bedUnit b = { s.bedUnit b with inBed := r.pieces, state := .cast } ∧
    t.cureUnit b = { s.cureUnit b with maturity := 0, sighted := false, bedState := .cast } ∧
    (t.mix (s.bedUnit b).mix).useCount = (s.mix (s.bedUnit b).mix).useCount + r.pieces.length := by
  intro t
  let set := (s.setBedUnit b { s.bedUnit b with inBed := r.pieces }).setCureUnit b
    { s.cureUnit b with maturity := 0, sighted := false }
  let counted := changeUse (s.bedUnit b).mix r.pieces.length set
  have accept : t = setBedState b .cast counted := by simp only [t, acceptBed, code, counted, set]
  obtain ⟨unit, cure, _, _⟩ := owners_of_beds (s := set) (t := counted) (by simp [counted]) b
  obtain ⟨set_unit, set_cure, _⟩ := setBedState_bed b .cast counted
  have set_state : (counted.bedUnit b).state = .prepared := by simpa [unit, set] using prepared
  refine ⟨?_, ?_, ?_⟩
  · rw [accept, set_unit, unit]
    simp [set]
  · rw [accept, set_cure, cure]
    simp [set]
  · rw [accept, mix_of_mixes (setBedState_mixes b .cast counted (by simp [set_state])), mix_changeUse _ _ _ _ low high, if_pos rfl,
      mix_of_mixes (s := s) (by simp [set])]
    exact Int.toNat_natCast _

/-- The copies that a CAST gives the piece at a place of its list (R9). -/
theorem pieceCopy_cast {b : Fin 24} {mix : Nat} {r : BedRequest} (code : r.code = .cast) (once : r.pieces.Nodup) (i : Nat)
    (h : i < r.pieces.length) (p : Piece) :
    pieceCopy b mix r r.pieces[i] p = {
      state := .inBed, bed := b.val + 1, position := i + 1,
      length := bitsAt (r.plan.getD i 0) 8 8, mix := mix, zone := bitsAt (r.plan.getD i 0) 0 8, slot := 0, claim := 0, hold := 0,
      maturity := 0, ready := false, request := p.request } := by
  have place : r.pieces.findIdx (fun m => decide (m = r.pieces[i])) = i := by
    rw [List.findIdx_eq h]
    exact ⟨decide_eq_true rfl, fun j below => decide_eq_false (List.pairwise_iff_getElem.1 once j i (by omega) h below)⟩
  simp only [pieceCopy, code, castPiece, place]

/-- Settles O30: the pieces are those with few enough FREE ones below them, and each group makes the pieces of its runs. -/
theorem castMakesTheLowestFreePieces : Obligations.CastMakesTheLowestFreePieces := by
  unfold Obligations.CastMakesTheLowestFreePieces
  refine ⟨fun s b addr ready => ?_, fun s b r request stage code accepted once among there prepared low high => ?_⟩
  · obtain ⟨r, count, request, outbox, mem, code, result, stage, time, pieces, toWrite, plan⟩ := cast_row ready
    refine ⟨_, r, rfl, count, request, outbox, code, result, stage, time, ?_, toWrite, fun n => ?_, plan, mem⟩
    · rw [pieces]
      exact freePieces_rising s _
    · rw [pieces]
      exact mem_freePieces s _ n
  · intro runs first makes
    have made : ∀ (after : State) (ns : List Nat),
        (∀ n, after.piece? n = (pieceCopies b (s.bedUnit b).mix r ns s).piece? n) → makes after ns := by
      intro after ns copies i h written
      obtain ⟨p, piece⟩ := Option.isSome_iff_exists.1 (there _ (List.getElem_mem h))
      refine ⟨pieceCopy b (s.bedUnit b).mix r r.pieces[i] p, ?_, ?_⟩
      · rw [copies, piece?_pieceCopies, if_pos written, piece]
        rfl
      · rw [pieceCopy_cast code once i h p]
        exact ⟨rfl, rfl, rfl, rfl, rfl, rfl, rfl, rfl, rfl, rfl, rfl⟩
    refine ⟨fun fits => ?_, fun long => ?_⟩
    · let written := pieceCopies b (s.bedUnit b).mix r r.toWrite s
      have unit : written.bedUnit b = s.bedUnit b := (owners_of_beds (by simp [written]) b).1
      have group := bedRequestGroup_last request stage accepted fits
      have leads : r.leadsTo (s.bedUnit b) = .cast := by simp only [BedRequest.leadsTo, code]
      have plain : (if r.code = .clear then r.toWrite else []) = [] := by rw [code]; rfl
      simp only [leads, plain, prepared] at group
      obtain ⟨set_unit, set_cure, set_mix⟩ := acceptBed_cast (s := written) code (unit ▸ prepared) (unit ▸ low) (unit ▸ high)
      rw [unit] at set_unit set_mix
      refine ⟨_, _, group, ?_, ?_, ?_, ?_, ?_, ?_, ?_⟩
      · simp [pieceSpans_length, runs]
      · simp [written, set_unit]
      · simp [written, set_unit]
      · simp [written, set_cure]
      · simp [written, set_cure]
      · exact made _ _ (piece?_of_stock (by simp))
      · rw [mix_of_mixes (s := acceptBed b r .cast written) (by simp [written])]
        rw [set_mix, mix_of_mixes (s := s) (t := written) (by simp [written])]
    · have unit : (pieceCopies b (s.bedUnit b).mix r ((runsOf r.toWrite).take 6).flatten s).bedUnit b = s.bedUnit b :=
        (owners_of_beds (by simp) b).1
      have group := bedRequestGroup_part request stage accepted long
      have plain : (if r.code = .clear then ((runsOf r.toWrite).take 6).flatten else []) = [] := by rw [code]; rfl
      simp only [plain] at group
      refine ⟨_, _, r.toWrite.filter (fun n => decide (n ∉ first)), group, ?_, ?_, ?_, ?_, ?_, ?_, ?_⟩
      · simp only [pieceSpans_length, List.length_take]
        exact Nat.min_eq_left long
      · simp [unit, prepared]
      · simp [unit]
      · simp
      · simp [first, runs]
      · intro n
        simp [first, runs]
      · exact made _ _ (piece?_of_stock (by simp [first, runs]))

end Sys2Proof.Machine
end

section
/-! CLEAR: its row, its groups, and the pieces that their completion frees (R16, R10, R112). -/

namespace Sys2Proof.Machine

/-! ### Piece number order -/

theorem insertBy_perm {α : Type} (key : α → Nat) (x : α) (xs : List α) : (insertBy key x xs).Perm (x :: xs) := by
  induction xs with
  | nil => exact .refl _
  | cons y ys ih =>
    simp only [insertBy]
    split
    · exact .refl _
    · exact (ih.cons y).trans (.swap x y ys)

theorem insertBy_rising {α : Type} (key : α → Nat) (x : α) (xs : List α) (rising : xs.Pairwise (key · ≤ key ·)) :
    (insertBy key x xs).Pairwise (key · ≤ key ·) := by
  induction xs with
  | nil => exact List.pairwise_singleton _ _
  | cons y ys ih =>
    obtain ⟨least, rest⟩ := List.pairwise_cons.1 rising
    simp only [insertBy]
    split
    · next below =>
      refine List.pairwise_cons.2 ⟨fun z among => ?_, rising⟩
      rcases List.mem_cons.1 among with rfl | among
      · exact Nat.le_of_lt below
      · exact Nat.le_trans (Nat.le_of_lt below) (least z among)
    · next above =>
      refine List.pairwise_cons.2 ⟨fun z among => ?_, ih rest⟩
      rcases List.mem_cons.1 ((insertBy_perm key x ys).mem_iff.1 among) with rfl | among
      · exact Nat.le_of_not_lt above
      · exact least z among

/-- What is put in order one after another is all there, and in order. -/
theorem foldl_insertBy {α : Type} (key : α → Nat) (xs sorted : List α) (rising : sorted.Pairwise (key · ≤ key ·)) :
    (xs.foldl (fun acc x => insertBy key x acc) sorted).Perm (xs ++ sorted) ∧
    (xs.foldl (fun acc x => insertBy key x acc) sorted).Pairwise (key · ≤ key ·) := by
  induction xs generalizing sorted with
  | nil => exact ⟨.refl _, rising⟩
  | cons x rest ih =>
    obtain ⟨perm, ordered⟩ := ih (insertBy key x sorted) (insertBy_rising key x sorted rising)
    exact ⟨(perm.trans ((insertBy_perm key x sorted).append_left rest)).trans List.perm_middle, ordered⟩

theorem sortBy_perm {α : Type} (key : α → Nat) (xs : List α) : (sortBy key xs).Perm xs := by
  simpa [sortBy] using (foldl_insertBy key xs [] .nil).1

theorem sortBy_rising {α : Type} (key : α → Nat) (xs : List α) : (sortBy key xs).Pairwise (key · ≤ key ·) :=
  (foldl_insertBy key xs [] .nil).2

/-! ### The row (R5, R16) -/

/-- A CLEAR that its intake read has found: accepted, with the pieces of the in-bed list to be freed (R16). -/
def BedUnit.clearing (u : BedUnit) : BedRequest :=
  { u.posted .clear with result := .accepted, pieces := u.inBed, toWrite := sortBy id u.inBed }

/-- A bed's in-bed list is dropped (R16). -/
def State.listDropped (s : State) (b : Fin 24) : State := s.setBedUnit b { s.bedUnit b with inBed := [] }

theorem clear_formed {s : State} {b : Fin 24} {addr : Nat} (ready : BedReady s b addr .clear) :
    bedRequestRow b .clear s = formResult b (s.bedUnit b).clearing ((s.examining b addr .clear).listDropped b) := by
  rw [bedRequestRow_calm ready]
  simp only [examineBed, BedUnit.posted, newRequest, BedUnit.clearing, State.listDropped,
    (examining_bed s b addr .clear).1]

/-- The bed as a CLEAR's result is formed: its in-bed list is gone, and its request in progress (R16). -/
theorem listDropped_bed (s : State) (b : Fin 24) (addr : Nat) :
    ((s.examining b addr .clear).listDropped b).bedUnit b =
      { s.bedUnit b with inBed := [], request := some ((s.bedUnit b).posted .clear) } := by
  simp [State.listDropped, (examining_bed s b addr .clear).1]

theorem listDropped_slotsFree {s : State} (calm : s.Calm) (b : Fin 24) (addr : Nat) :
    ((s.examining b addr .clear).listDropped b).SlotsFree :=
  (examining_slotsFree calm b addr .clear).congr (by simp [State.listDropped]) (by simp [State.listDropped])
    (by simp [State.listDropped]) (by simp [State.listDropped]) (by simp [State.listDropped])

/-- CLEAR in a calm part whose pieces fit in one group: the bed is EMPTY, no longer counted for its mix, and each piece of its
list is being freed (R4, R16). -/
theorem clear_row {s : State} {b : Fin 24} {addr : Nat} (ready : BedReady s b addr .clear)
    (fits : (runsOf (sortBy id (s.bedUnit b).inBed)).length ≤ 5) :
    let t := finish (bedRequestRow b .clear s)
    BedAccepted t b .clear .empty ∧ (t.bedUnit b).inBed = [] ∧
    (∀ n ∈ (s.bedUnit b).inBed, t.piece? n = (s.piece? n).map Piece.freeing) ∧
    (1 ≤ (s.bedUnit b).mix → (s.bedUnit b).mix ≤ 16 →
      (t.mix (s.bedUnit b).mix).useCount = (s.mix (s.bedUnit b).mix).useCount - 1) := by
  intro t
  obtain ⟨unit, cure, _, ⟨u, still, before, mixes⟩, pieces⟩ :=
    finish_accepted (listDropped_slotsFree ready.1 b addr) (r := (s.bedUnit b).clearing) (b := b) rfl fits nofun
  rw [← clear_formed ready, listDropped_bed] at unit
  rw [← clear_formed ready] at cure mixes
  rw [listDropped_bed] at still
  have occupied : (s.bedUnit b).state ≠ .empty := by
    intro same
    have states := state_of_ready ready
    simp [BedCode.states, same] at states
  refine ⟨⟨by rw [unit]; rfl, by rw [cure]; rfl, _, by rw [unit], rfl, rfl, rfl⟩, by rw [unit], fun n among => ?_,
    fun low high => ?_⟩
  · have listed : n ∈ (s.bedUnit b).clearing.toWrite := (sortBy_perm id _).mem_iff.2 among
    have same : ((s.examining b addr .clear).listDropped b).piece? n = s.piece? n :=
      piece?_of_stock (by simp [State.listDropped, State.examining]) n
    simp only [t, clear_formed ready, pieces, if_pos listed, same]
    rfl
  · have count := setBedState_returns b u (by rw [still]; exact occupied) (by rw [still]; exact low) (by rw [still]; exact high)
    have counted : u.mixes = s.mixes := before.trans (by simp [State.listDropped, (examining_bed s b addr .clear).2.2.2])
    rw [still, mix_of_mixes counted] at count
    rw [mix_of_mixes mixes]
    exact count

/-! ### The groups (R10, R16) -/

theorem pieceCopy_clear {r : BedRequest} (code : r.code = .clear) (b : Fin 24) (mix n : Nat) :
    pieceCopy b mix r n = Piece.freeing := by
  funext p
  simp only [pieceCopy, code]

/-- The last group of a CLEAR frees the rest of its pieces, and with it the bed is EMPTY (R16). -/
theorem clear_group_last {b : Fin 24} {s : State} {r : BedRequest} (request : (s.bedUnit b).request = some r)
    (stage : r.stage = .waitingSlot) (code : r.code = .clear) (accepted : r.result = .accepted)
    (occupied : (s.bedUnit b).state ≠ .empty) (fits : (runsOf r.toWrite).length ≤ 5) :
    ∃ after spans, form (.bedRequest b) s =
        (after, some (spans, .bedResult b r.toWrite (some ((s.bedUnit b).state, .empty)))) ∧
      spans.length = (runsOf r.toWrite).length + 1 ∧ (after.bedUnit b).state = .empty ∧
      ∀ n ∈ r.toWrite, after.piece? n = (s.piece? n).map Piece.freeing := by
  have leads : r.leadsTo (s.bedUnit b) = .empty := by simp only [BedRequest.leadsTo, code]
  have change : stateChange (s.bedUnit b).state .empty = some ((s.bedUnit b).state, .empty) := if_neg occupied
  have group := bedRequestGroup_last request stage accepted fits
  dsimp only at group
  rw [acceptBed_plain b r _ _ (by rw [code]; decide), leads, change, if_pos code] at group
  refine ⟨_, _, group, ?_, ?_, fun n among => ?_⟩
  · simp [pieceSpans_length]
  · simp [(setBedState_bed b .empty _).1]
  · rw [piece?_of_stock (s := pieceCopies b (s.bedUnit b).mix r r.toWrite s) (by simp), piece?_pieceCopies, if_pos among,
      pieceCopy_clear code]

/-- A group of a CLEAR before its last frees the pieces of the first six runs and leaves the bed's state (R16, R10). -/
theorem clear_group_part {b : Fin 24} {s : State} {r : BedRequest} (request : (s.bedUnit b).request = some r)
    (stage : r.stage = .waitingSlot) (code : r.code = .clear) (accepted : r.result = .accepted)
    (long : 6 ≤ (runsOf r.toWrite).length) :
    let first := ((runsOf r.toWrite).take 6).flatten
    ∃ after spans, form (.bedRequest b) s = (after, some (spans, .bedPart b first)) ∧ spans.length = 6 ∧
      (after.bedUnit b).state = (s.bedUnit b).state ∧
      (after.bedUnit b).request =
        some { r with stage := .resultInFlight, toWrite := r.toWrite.filter (fun n => decide (n ∉ first)) } ∧
      ∀ n ∈ first, after.piece? n = (s.piece? n).map Piece.freeing := by
  intro first
  let written := pieceCopies b (s.bedUnit b).mix r first s
  have unit : written.bedUnit b = s.bedUnit b := (owners_of_beds (by simp [written]) b).1
  have group := bedRequestGroup_part request stage accepted long
  dsimp only at group
  rw [if_pos code] at group
  refine ⟨written.putRequest b _, _, group, ?_, ?_, ?_, fun n among => ?_⟩
  · simp only [pieceSpans_length, List.length_take]
    exact Nat.min_eq_left long
  · rw [bedUnit_putRequest, unit]
  · rw [bedUnit_putRequest]
  · rw [piece?_of_stock (s := written) (by simp), piece?_pieceCopies, if_pos among,
      pieceCopy_clear code]

/-! ### The pieces freed (R19, R112) -/

/-- A piece copy whose record is FREE in memory. -/
def Piece.freed (p : Piece) : Piece := { p with state := .free, ready := false }

theorem pieceFreed_some {s : State} {n : Nat} {p : Piece} (piece : s.piece? n = some p) :
    pieceFreed n s = changeUse p.mix (-1) { s.setPiece n p.freed with freeCount := (s.setPiece n p.freed).freeCount + 1 } := by
  simp only [pieceFreed, piece]
  rfl

theorem piece?_pieceFreed (s : State) (n m : Nat) :
    (pieceFreed n s).piece? m = if m = n then (s.piece? m).map Piece.freed else s.piece? m := by
  cases piece : s.piece? n with
  | none =>
    simp only [pieceFreed, piece]
    split <;> simp_all
  | some p =>
    have there : n ≠ 0 := by rintro rfl; simp [State.piece?] at piece
    rw [pieceFreed_some piece, piece?_of_stock (s := s.setPiece n p.freed) (by simp), piece?_setPiece s n m _ there]
    split <;> simp_all

theorem pieceFreed_notices (n : Nat) (s : State) : (pieceFreed n s).notices = s.notices := by
  simp only [pieceFreed]
  split
  · simp [changeUse]
  · rfl

/-- A freed piece raises the free-piece count by one and is no longer counted for its mix (R19, R112). -/
theorem pieceFreed_counts {s : State} {n : Nat} {p : Piece} (piece : s.piece? n = some p) :
    (pieceFreed n s).freeCount = s.freeCount + 1 ∧
    ∀ m, 1 ≤ m → m ≤ 16 →
      ((pieceFreed n s).mix m).useCount = (s.mix m).useCount - if p.mix = m then 1 else 0 := by
  rw [pieceFreed_some piece]
  refine ⟨by simp, fun m low high => ?_⟩
  have mix : ({ s.setPiece n p.freed with freeCount := (s.setPiece n p.freed).freeCount + 1 } : State).mix m = s.mix m :=
    mix_of_mixes (by simp) m
  rw [mix_changeUse _ _ _ _ low high]
  by_cases same : m = p.mix
  · subst same
    simp only [if_true, mix]
    omega
  · simp only [if_neg same, if_neg (Ne.symm same), mix, Nat.sub_zero]

/-- How many of the pieces listed have a mix. -/
def State.ofMix (s : State) (m : Nat) (ns : List Nat) : Nat :=
  (ns.filter (fun n => (s.piece? n).any (fun p => decide (p.mix = m)))).length

theorem ofMix_congr {s t : State} (m : Nat) {ns : List Nat} (h : ∀ n ∈ ns, t.piece? n = s.piece? n) : t.ofMix m ns = s.ofMix m ns := by
  simp only [State.ofMix]
  rw [List.filter_congr fun n among => by rw [h n among]]

/-- The counts over a list of pieces freed one after another (R19, R112). -/
theorem foldl_pieceFreed_counts (ns : List Nat) (s : State) (once : ns.Nodup) (there : ∀ n ∈ ns, (s.piece? n).isSome = true) :
    let u := ns.foldl (fun s n => pieceFreed n s) s
    u.freeCount = s.freeCount + ns.length ∧
    ∀ m, 1 ≤ m → m ≤ 16 → (u.mix m).useCount = (s.mix m).useCount - s.ofMix m ns := by
  induction ns generalizing s with
  | nil => exact ⟨rfl, fun _ _ _ => rfl⟩
  | cons n rest ih =>
    obtain ⟨fresh, once⟩ := List.nodup_cons.1 once
    obtain ⟨p, piece⟩ := Option.isSome_iff_exists.1 (there n List.mem_cons_self)
    have others : ∀ k ∈ rest, (pieceFreed n s).piece? k = s.piece? k := fun k among => by
      rw [piece?_pieceFreed]
      exact if_neg (by rintro rfl; exact fresh among)
    obtain ⟨free, use⟩ := pieceFreed_counts piece
    obtain ⟨frees, uses⟩ := ih (pieceFreed n s) once fun k among => by
      rw [others k among]
      exact there k (List.mem_cons_of_mem n among)
    refine ⟨by simp only [List.foldl_cons, frees, free, List.length_cons]; omega, fun m low high => ?_⟩
    have count : s.ofMix m (n :: rest) = (if p.mix = m then 1 else 0) + s.ofMix m rest := by
      by_cases same : p.mix = m <;> simp [State.ofMix, piece, same, Nat.add_comm]
    rw [List.foldl_cons, uses m low high, use m low high, ofMix_congr m others, count]
    omega

/-- What the completion of a CLEAR's group counts outside SAFE: its pieces are FREE, the free-piece count has risen and the use
counts have fallen by them, and no notice is posted (R16, R19). -/
theorem piecesFreed_sets {s : State} {ns : List Nat} (running : s.dir.lifecycle = .running) (once : ns.Nodup)
    (there : ∀ n ∈ ns, (s.piece? n).isSome = true) :
    let u := piecesFreed ns s
    u.freeCount = s.freeCount + ns.length ∧
    (∀ n ∈ ns, ∀ p, s.piece? n = some p → u.piece? n = some p.freed) ∧
    (∀ m, 1 ≤ m → m ≤ 16 → (u.mix m).useCount = (s.mix m).useCount - s.ofMix m ns) ∧ u.notices = s.notices := by
  have counted : piecesFreed ns s = ns.foldl (fun s n => pieceFreed n s) s := by
    simp [piecesFreed, State.safe, running]
  intro u
  obtain ⟨free, use⟩ := foldl_pieceFreed_counts ns s once there
  simp only [u, counted]
  refine ⟨free, fun n among p piece => ?_, use, ?_⟩
  · rw [piece?_foldl (fun s n => pieceFreed n s) (fun _ => Piece.freed) piece?_pieceFreed (fun _ _ => rfl), if_pos among, piece]
    rfl
  · exact foldl_notices _ (fun _ _ => pieceFreed_notices _ _) _ _

/-! ### The completions (R10, R16) -/

/-- A group of a CLEAR before its last completes: the pieces are counted, and the next group is handed (R10, R16). -/
theorem bedPartDone_sets {b : Fin 24} {s : State} {r : BedRequest} (request : (s.bedUnit b).request = some r)
    (freed : List Nat) :
    let u := bedPartDone b freed s
    (u.bedUnit b).request = some { r with stage := .waitingSlot } ∧
    u.path = { s.path with outbox := s.path.outbox ++ [.bedRequest b] } ∧
    u.mixes = (piecesFreed freed s).mixes ∧ u.stock = (piecesFreed freed s).stock ∧
    u.freeCount = (piecesFreed freed s).freeCount := by
  have unit : (piecesFreed freed s).bedUnit b = s.bedUnit b := (owners_of_beds (by simp) b).1
  have done : bedPartDone b freed s = formResult b r (piecesFreed freed s) := by
    simp only [bedPartDone, unit, request]
  intro u
  obtain ⟨set_unit, path, _⟩ := formResult_sets b r (piecesFreed freed s)
  simp only [u, done]
  refine ⟨by rw [set_unit], ?_, ?_, ?_, ?_⟩
  · rw [path]
    simp
  · simp [formResult_eq, handJob]
  · simp [formResult_eq, handJob]
  · simp [formResult_eq, handJob]

/-- The notice of a bed's change of state (R4, R175, R190). -/
theorem postBedState_notices (b : Fin 24) (old new : BedState) (s : State) (running : s.dir.lifecycle = .running) :
    (postBedState b (some (old, new)) s).notices = s.notices.place true
      ⟨.bedState, .bed, b.val + 1, Word.ofCount (old.toNat + 65536 * new.toNat), s.dir.worksTime⟩ := by
  have small : ∀ state : BedState, state.toNat % 65536 = state.toNat := fun state => by cases state <;> rfl
  simp [postBedState, postBed, post, State.running, running, detail2, small]

theorem discardDone_notices (b : Fin 24) (s : State) : (discardDone b s).notices = s.notices := by
  simp only [discardDone]
  split
  · simp
  · rfl

/-- Settles O31: the row, its groups, and what the completion of each of them counts. -/
theorem clearFreesThePieces : Obligations.ClearFreesThePieces := by
  unfold Obligations.ClearFreesThePieces
  refine ⟨fun s b addr ready fits there => ?_, fun s b addr ready => ?_,
    fun s b r request stage code accepted there occupied => ?_,
    fun s g rest b freed r answered wait completion request running once there => ?_,
    fun s g rest b freed old new r answered wait completion request accepted running once there => ?_⟩
  · obtain ⟨moved, list, pieces, count⟩ := clear_row ready fits
    refine ⟨_, rfl, moved, list, fun n among => ?_, count⟩
    obtain ⟨p, piece⟩ := Option.isSome_iff_exists.1 (there n among)
    exact ⟨p.freeing, by rw [pieces n among, piece]; rfl, rfl, rfl⟩
  · have outbox := (listDropped_slotsFree ready.1 b addr).outbox
    obtain ⟨unit, path, _⟩ := formResult_sets b (s.bedUnit b).clearing ((s.examining b addr .clear).listDropped b)
    rw [listDropped_bed] at unit
    rw [outbox] at path
    rw [← clear_formed ready] at unit path
    exact ⟨_, { (s.bedUnit b).clearing with stage := .waitingSlot }, rfl, by rw [path]; rfl, by rw [unit], by rw [unit], by rw [unit],
      rfl, rfl, rfl, sortBy_perm id _, sortBy_rising id (s.bedUnit b).inBed⟩
  · intro runs first frees
    have freeing : ∀ (after : State) (ns : List Nat), (∀ n ∈ ns, n ∈ r.toWrite) →
        (∀ n ∈ ns, after.piece? n = (s.piece? n).map Piece.freeing) → frees after ns := by
      intro after ns listed copies n among
      obtain ⟨p, piece⟩ := Option.isSome_iff_exists.1 (there n (listed n among))
      exact ⟨p.freeing, by rw [copies n among, piece]; rfl, rfl, rfl, rfl, rfl⟩
    refine ⟨fun fits => ?_, fun long => ?_⟩
    · have left : (s.bedUnit b).state ≠ .empty := by rintro same; simp [same] at occupied
      obtain ⟨after, spans, group, length, state, copies⟩ := clear_group_last request stage code accepted left fits
      refine ⟨after, spans, ?_, length, state, freeing after _ (fun _ among => among) copies⟩
      rw [group, runsOf_flatten]
    · have listed : ∀ n ∈ first, n ∈ r.toWrite := fun n among => by
        obtain ⟨run, early, within⟩ := List.mem_flatten.1 among
        rw [← runsOf_flatten r.toWrite]
        exact List.mem_flatten.2 ⟨run, List.mem_of_mem_take early, within⟩
      obtain ⟨after, spans, group, length, state, still, copies⟩ := clear_group_part request stage code accepted long
      exact ⟨after, spans, _, group, length, state, still, fun n => by simp [first, runs], freeing after _ listed copies⟩
  · obtain ⟨free, pieces, use, _⟩ := piecesFreed_sets (s := s.withPath { s.path with answered := rest }) running once there
    obtain ⟨still, path, mixes, stock, count⟩ := bedPartDone_sets (s := s.withPath { s.path with answered := rest }) request freed
    refine ⟨_, exec_groupComplete answered (by rw [completion]; nofun) (by rw [completion]; rfl) ?_, ?_, count.trans free,
      fun n among p piece => ?_, fun m low high => ?_, still, ?_⟩
    · rw [path]
      exact wait
    · rw [path]
      rfl
    · rw [piece?_of_stock stock]
      exact pieces n among p piece
    · rw [mix_of_mixes mixes]
      exact use m low high
    · rw [path]
      rfl
  · obtain ⟨free, pieces, use, quiet⟩ := piecesFreed_sets (s := s.withPath { s.path with answered := rest }) running once there
    obtain ⟨ended, _, waits, answers, mixes, stock, count, posted⟩ := bedResultDone_sets
      (s := s.withPath { s.path with answered := rest }) request freed (some (old, new))
    refine ⟨_, exec_groupComplete answered (by rw [completion]; nofun) (by rw [completion]; rfl) (waits.trans wait), answers,
      count.trans free, fun n among p piece => ?_, fun m low high => ?_, by rw [ended], ?_⟩
    · rw [piece?_of_stock stock]
      exact pieces n among p piece
    · rw [mix_of_mixes mixes]
      exact use m low high
    · rw [posted accepted]
      simp only [State.resultEnded, putRequest_keeps, discardDone_notices]
      rw [postBedState_notices b old new _ (by simpa using running), quiet]
      simp

end Sys2Proof.Machine
end

section
/-! The yard maturity step (R127, R128): what it makes of each piece's copies. -/

namespace Sys2Proof.Machine

/-! ### A change of the piece copies, one piece after another -/

theorem countFrom_nodup (lo n : Nat) : (countFrom lo n).Nodup := by
  induction n generalizing lo with
  | zero => exact List.nodup_nil
  | succ n ih =>
    rw [countFrom, List.nodup_cons, mem_countFrom]
    exact ⟨by omega, ih (lo + 1)⟩

/-- The pieces that are there are those the step goes through. -/
theorem mem_countFrom_of_piece {s : State} {n : Nat} {p : Piece} (piece : s.piece? n = some p) :
    n ∈ countFrom 1 s.stock.pieces.length := by
  simp only [State.piece?] at piece
  split at piece
  · cases piece
  · next there =>
    obtain ⟨within, _⟩ := List.getElem?_eq_some_iff.1 piece
    rw [mem_countFrom]
    omega

/-- A change that depends on the mixes and on the piece alone, folded over a list without repetition, reaches each piece of the
list once. -/
theorem piece?_foldl_once (f : State → Nat → State) (g : (Nat → Mix) → Piece → Piece) (mixes : ∀ s n, (f s n).mix = s.mix)
    (one : ∀ s n m, (f s n).piece? m = if m = n then (s.piece? m).map (g s.mix) else s.piece? m)
    (ns : List Nat) (once : ns.Nodup) (s : State) (m : Nat) :
    (ns.foldl f s).piece? m = if m ∈ ns then (s.piece? m).map (g s.mix) else s.piece? m := by
  induction ns generalizing s with
  | nil => rfl
  | cons n rest ih =>
    obtain ⟨fresh, once⟩ := List.nodup_cons.1 once
    rw [List.foldl_cons, ih once, one, mixes]
    by_cases same : m = n
    · subst same
      simp [fresh]
    · simp [same]

/-! ### One piece -/

/-- A piece that is there is what a lookup finds, whatever else is looked up. -/
theorem piece?_eq_ite {s : State} {n : Nat} {p : Piece} (piece : s.piece? n = some p) (m : Nat) :
    s.piece? m = if m = n then some p else s.piece? m := by
  split
  · next here => rw [here, piece]
  · rfl

theorem map_piece?_eq_ite {s : State} {n : Nat} {p : Piece} (piece : s.piece? n = some p) (g : Piece → Piece) (m : Nat) :
    (if m = n then (s.piece? m).map g else s.piece? m) = if m = n then some (g p) else s.piece? m := by
  split
  · next here => rw [here, piece, Option.map_some]
  · rfl

theorem piece?_setPiece_of_some {s : State} {n : Nat} {p : Piece} (piece : s.piece? n = some p) (q : Piece) (m : Nat) :
    (s.setPiece n q).piece? m = if m = n then some q else s.piece? m := by
  have there : n ≠ 0 := by rintro rfl; simp [State.piece?] at piece
  rw [piece?_setPiece s n m q there, map_piece?_eq_ite piece]

/-- A piece of the stock after one step at a yard temperature (R127). -/
def Piece.matured (temperature : Int) (mix : Nat → Mix) (p : Piece) : Piece :=
  if p.state = .inStock then { p with maturity := maturityAfter p.maturity temperature (mix p.mix).datum } else p

/-- A piece of the stock after its ready check (R128). -/
def Piece.readied (mix : Nat → Mix) (p : Piece) : Piece :=
  if p.state = .inStock then { p with ready := p.ready || decide ((mix p.mix).dispatch ≤ p.maturity) } else p

theorem piece?_yardStep (temperature : Int) (s : State) (n m : Nat) :
    (yardStep temperature n s).piece? m = if m = n then (s.piece? m).map (Piece.matured temperature s.mix) else s.piece? m := by
  cases piece : s.piece? n with
  | none =>
    simp only [yardStep, piece]
    split <;> simp_all
  | some p =>
    rw [map_piece?_eq_ite piece]
    by_cases stock : p.state = .inStock
    · rw [Piece.matured, if_pos stock]
      by_cases still : maturityAfter p.maturity temperature (s.mix p.mix).datum = p.maturity
      · simp only [yardStep, piece, if_pos stock, still, if_true]
        exact piece?_eq_ite piece m
      · simp only [yardStep, piece, if_pos stock, if_neg still]
        exact (piece?_of_stock (by simp) m).trans (piece?_setPiece_of_some piece _ m)
    · rw [Piece.matured, if_neg stock]
      simp only [yardStep, piece, if_neg stock]
      exact piece?_eq_ite piece m

theorem piece?_readyCheck {s : State} {n : Nat} {p : Piece} (piece : s.piece? n = some p) (m : Nat) :
    (readyCheck n s).piece? m =
      if m = n then some { p with ready := p.ready || decide ((s.mix p.mix).dispatch ≤ p.maturity) } else s.piece? m := by
  by_cases reached : p.ready = false ∧ s.dispatchReady p
  · have marked : (p.ready || decide ((s.mix p.mix).dispatch ≤ p.maturity)) = true := by
      rw [reached.1]
      exact reached.2
    simp only [readyCheck, piece, if_pos reached, marked]
    exact piece?_setPiece_of_some piece _ m
  · have kept : (p.ready || decide ((s.mix p.mix).dispatch ≤ p.maturity)) = p.ready := by
      cases ready : p.ready
      · simpa [ready, State.dispatchReady] using reached
      · rfl
    simp only [readyCheck, piece, if_neg reached, kept]
    exact piece?_eq_ite piece m

theorem piece?_yardReady (s : State) (n m : Nat) :
    (yardReady n s).piece? m = if m = n then (s.piece? m).map (Piece.readied s.mix) else s.piece? m := by
  cases piece : s.piece? n with
  | none =>
    simp only [yardReady, piece]
    split <;> simp_all
  | some p =>
    rw [map_piece?_eq_ite piece]
    by_cases stock : p.state = .inStock
    · simp only [yardReady, piece, if_pos stock, Piece.readied]
      exact piece?_readyCheck piece m
    · simp only [yardReady, piece, if_neg stock, Piece.readied]
      exact piece?_eq_ite piece m

/-! ### The step (R127) -/

/-- A piece after the step: matured at the yard temperature, if there is one, and then checked (R127, R128). -/
def Piece.stepped (temperature : Option Int) (mix : Nat → Mix) (p : Piece) : Piece :=
  ((temperature.map (fun t => p.matured t mix)).getD p).readied mix

theorem piece?_yardMaturityStep {s : State} (running : s.dir.lifecycle = .running) {n : Nat} {p : Piece}
    (piece : s.piece? n = some p) :
    (yardMaturityStep s).piece? n = some (p.stepped s.yardTemperature s.mix) := by
  have among := mem_countFrom_of_piece piece
  have once := countFrom_nodup 1 s.stock.pieces.length
  have checked (t : State) := piece?_foldl_once (fun s n => yardReady n s) Piece.readied
    (fun s n => funext (mix_of_mixes (by simp))) piece?_yardReady _ once t n
  have added (t : Int) := piece?_foldl_once (fun s n => yardStep t n s) (Piece.matured t)
    (fun s n => funext (mix_of_mixes (by simp))) (piece?_yardStep t) _ once s n
  have live : s.running = true := by simp [State.running, running]
  simp only [yardMaturityStep, live, if_true, checked, if_pos among]
  cases s.yardTemperature with
  | none => simp only [piece]; rfl
  | some t =>
    have mixes : ((countFrom 1 s.stock.pieces.length).foldl (fun s n => yardStep t n s) s).mix = s.mix :=
      funext (mix_of_mixes (foldl_mixes _ (by simp) _ _))
    simp only [added, if_pos among, mixes, piece]
    rfl

/-- What the step makes of a piece IN_STOCK, and of any other (R127, R128). -/
theorem stepped_fields (temperature : Option Int) (mix : Nat → Mix) (p : Piece) :
    let q := p.stepped temperature mix
    (p.state ≠ .inStock → q = p) ∧
    (p.state = .inStock →
      q.maturity = (match temperature with
        | some t => maturityAfter p.maturity t (mix p.mix).datum
        | none => p.maturity) ∧
      q.ready = (p.ready || decide ((mix p.mix).dispatch ≤ q.maturity)) ∧
      q = { p with maturity := q.maturity, ready := q.ready }) := by
  refine ⟨fun other => ?_, fun stock => ?_⟩
  · cases temperature <;> simp [Piece.stepped, Piece.matured, Piece.readied, other]
  · cases temperature <;> simp [Piece.stepped, Piece.matured, Piece.readied, stock]

/-- Settles O47: the step reaches each piece once, first its maturity and then its ready mark. -/
theorem yardStepAddsToTheStock : Obligations.YardStepAddsToTheStock := by
  unfold Obligations.YardStepAddsToTheStock
  intro s running
  refine ⟨yardMaturityStep s, rfl, by simp, fun n p piece => ⟨_, piece?_yardMaturityStep running piece, ?_⟩⟩
  obtain ⟨other, stock⟩ := stepped_fields s.yardTemperature s.mix p
  refine ⟨other, fun lies => ?_⟩
  obtain ⟨maturity, ready, rest⟩ := stock lies
  refine ⟨?_, ready, rest⟩
  rw [maturity]
  cases s.yardTemperature <;> rfl

end Sys2Proof.Machine
end

section
/-! A host WRITE of one word that its owner refuses, in a calm part (R31, R32). -/

namespace Sys2Proof.Machine

/-- What the own stream issues leaves the refusal record, and gives the port to no host transfer. -/
theorem ownIssue_own {s t : State} (h : ownIssue s = some t) : t.path.refusal = s.path.refusal ∧ t.path.port ≠ .host := by
  simp only [ownIssue] at h
  (repeat' split at h) <;> simp only [Option.some.injEq, reduceCtorEq] at h <;> (subst h; exact ⟨rfl, nofun⟩)

/-- With no host transfer taken, what ends a calm command leaves the refusal record, and gives the port to no host transfer. -/
theorem finish_calm_own {s : State} (outbox : s.path.outbox = []) (kept : s.path.kept = []) (writes : s.notices.writeList = [])
    (runway : s.RunwayCalm) (alone : s.hostCandidate = false) (port : s.path.port ≠ .host) :
    (finish s).path.refusal = s.path.refusal ∧ (finish s).path.port ≠ .host := by
  rw [finish_calm s outbox kept writes runway]
  have alone : (evaluateAttn s).hostCandidate = false := alone
  have same : (evaluateAttn s).path = s.path := rfl
  rcases givePort_cases (evaluateAttn s) with waits | given
  · rw [waits]
    exact ⟨rfl, port⟩
  · rw [given]
    by_cases free : (evaluateAttn s).path.port = .free
    · simp only [arbitrate, if_pos free, alone, Bool.false_eq_true, if_false]
      cases issue : ownIssue (evaluateAttn s) with
      | none => exact ⟨rfl, port⟩
      | some t => exact ownIssue_own (s := evaluateAttn s) issue
    · simp only [arbitrate, if_neg free]
      exact ⟨rfl, port⟩

/-- A calm part once it has refused a WRITE whole: the refusal is recorded, and the host has its response (R31, R32). -/
def State.refused (s : State) (addr : Nat) (reason : Code) : State :=
  { recordRefusal addr reason s with host := ⟨none, [], [⟨.refused, []⟩]⟩ }

/-- A refusal is recorded beside the upstream port. -/
theorem recordRefusal_host (addr : Nat) (reason : Code) (s : State) (h : HostPort) :
    recordRefusal addr reason { s with host := h } = { recordRefusal addr reason s with host := h } := by
  simp only [recordRefusal, refreshDirectory, refresh]
  split <;> split <;> first | rfl | contradiction

/-- A host transfer that arrives at a calm part, and that the port does not settle at once, waits in it (R24, R27). -/
theorem arrive_calm {s : State} {addr : Nat} {words : List WriteWord} (idle : s.PathIdle)
    (fits : addr + words.length ≤ Config.memoryWords) (enabled : words.all (fun w => decide (w.enables = 0)) = false) :
    arrive ⟨addr, .write words⟩ s =
      { s with host := ⟨some ⟨⟨addr, .write words⟩, .waiting, false, [], [], false, false⟩, [], []⟩ } := by
  obtain ⟨up, backlog, _⟩ := idle
  have near : ¬ Config.memoryWords < addr + words.length := Nat.not_lt.2 fits
  simp only [arrive, State.withHost, up, backlog, List.nil_append, List.length_nil, letIn, enterPort, transferLength, if_neg near,
    enabled, Bool.false_eq_true, if_false, State.withUp, Option.isNone_none, if_true]

/-- A waiting WRITE that its owner refuses is examined in a part that is calm but for it, and refused whole (R27, R31). -/
theorem takeTransfer_refuses {s : State} {addr a : Nat} {words : List WriteWord} {reason : Code} (h : s.Calm)
    (refuses : s.judge addr words = .refused a reason) :
    takeTransfer { s with host := ⟨some ⟨⟨addr, .write words⟩, .waiting, false, [], [], false, false⟩, [], []⟩ } =
      s.refused a reason := by
  obtain ⟨running, _, ⟨_, _, _, current, queue, answered, returned, _, _, wait⟩, _, _⟩ := h
  have held : ∀ (v : HostPort) (t : HostTransfer), State.transferHeld { s with host := v } t = false := by
    intro v t
    simp [State.transferHeld, State.held, State.swapHolds, State.swapReadOut, queue, current, answered, returned]
  have path : { s.path with slotWait := [] } = s.path := by rw [← wait]
  have response : ∀ v : HostPort, v.backlog = [] → refuseTransfer a reason { s with host := v } = s.refused a reason := by
    intro v alone
    rw [refuseTransfer, recordRefusal_host, respond_alone _ _ _ alone]
    rfl
  simp [takeTransfer, State.waitsFree, transferIsWrite, held, takeWrite, running, takeRunning, judge_host, refuses, freeReserved,
    State.leaveSlotWait, wait, path, response]

/-- In a calm part a WRITE that its owner refuses is answered within its own command, and changes nothing but the refusal record
(R31, R32). -/
theorem hostWriteNow_refused {s : State} {addr a : Nat} {words : List WriteWord} {reason : Code} (h : s.Calm)
    (fits : addr + words.length ≤ Config.memoryWords) (enabled : words.all (fun w => decide (w.enables = 0)) = false)
    (refuses : s.judge addr words = .refused a reason) :
    let u := hostWriteNow addr words s
    s.SettledAs u ∧ u.host.replies = [⟨.refused, []⟩] ∧ u.path.refusal = ⟨a, reason, s.dir.worksTime⟩ := by
  have taken := takeTransfer_refuses h refuses
  have arrived := arrive_calm h.2.2.1 fits enabled
  obtain ⟨_, _, ⟨up, _, port, _, _, _, _, outbox, kept, _⟩, writes, runway⟩ := h
  have recorded : (s.refused a reason).path.outbox = [] ∧ (s.refused a reason).path.kept = [] ∧
      (s.refused a reason).path.port ≠ .host ∧ (s.refused a reason).path.refusal = ⟨a, reason, s.dir.worksTime⟩ ∧
      (s.refused a reason).notices = s.notices ∧ s.SettledAs (s.refused a reason) := by
    have free : s.path.port ≠ .host := by rw [port]; nofun
    simp only [State.refused, recordRefusal, refreshDirectory, refresh]
    split <;> exact ⟨outbox, kept, free, rfl, rfl, rfl⟩
  obtain ⟨outbox, kept, port, refusal, notices, settled⟩ := recorded
  have runway : (s.refused a reason).RunwayCalm := runwayCalm_settled settled runway
  rw [← notices] at writes
  obtain ⟨still, idle⟩ := finish_calm_own outbox kept writes runway rfl port
  have ended : hostWriteNow addr words s = finish (s.refused a reason) := by
    simp only [hostWriteNow, up, Option.isSome_none, Bool.false_eq_true, if_false, arrived, taken]
  intro u
  simp only [u, ended]
  refine ⟨settledAs_trans settled (finish_settled _ outbox runway), ?_, still.trans refusal⟩
  rw [finish_host _ rfl]
  rfl

/-- One whole word that its owner refuses (R29, R31). -/
theorem judge_one_refused {s : State} {addr : Nat} {w : WordRef} {v : Word} {reason : Code}
    (found : locate s.path.windows addr = some w) (owned : s.isOpenWord w = false)
    (answer : s.ownerAnswer [⟨addr, w, v, true⟩] ⟨addr, w, v, true⟩ = .refuse reason) :
    s.judge addr (fullWords [v]) = .refused addr reason := by
  have one : judgedWords s.path.windows addr (fullWords [v]) = [⟨addr, w, v, true⟩] := by
    simp only [fullWords, List.map_cons, List.map_nil, judgedWords, found]
    rfl
  simp only [State.judge, one, State.gather, State.judgeWord, owned, Bool.false_eq_true, if_false, if_true, answer]

/-- A request row in a calm part whose word the owner refuses: the host is refused, and no owner changes (R31, R32). -/
theorem writeRecord_refused {s : State} {r : Region} {index offset addr : Nat} {v : Word} {reason : Code} (h : s.Calm)
    (lies : s.WordLies r index offset addr) (owned : s.isOpenWord ⟨r, index, offset⟩ = false)
    (answer : s.ownerAnswer [⟨addr, ⟨r, index, offset⟩, v, true⟩] ⟨addr, ⟨r, index, offset⟩, v, true⟩ = .refuse reason) :
    let u := writeRecord r index offset [v] s
    s.SettledAs u ∧ u.host.replies = [⟨.refused, []⟩] ∧ u.path.refusal = ⟨addr, reason, s.dir.worksTime⟩ := by
  obtain ⟨place, found, below⟩ := lies
  simp only [writeRecord, place]
  exact hostWriteNow_refused h below rfl (judge_one_refused found owned answer)

end Sys2Proof.Machine
end

section
/-! SCRAP and FREE (R112 to R114): how the request is judged, its rows in a calm part, its result group, and the completion. -/

namespace Sys2Proof.Machine

/-! ### The copies of pieces and slots -/

theorem piece?_setRequest (s : State) (n m : Nat) (r : Option PieceRequest) :
    (setRequest n r s).piece? m = if m = n then (s.piece? m).map (fun p => { p with request := r }) else s.piece? m := by
  cases piece : s.piece? n with
  | none =>
    simp only [setRequest, piece]
    split <;> simp_all
  | some p =>
    rw [map_piece?_eq_ite piece]
    simp only [setRequest, piece]
    exact piece?_setPiece_of_some piece _ m

@[simp] theorem setRequest_stock (n : Nat) (r : Option PieceRequest) (s : State) :
    (setRequest n r s).stock.slots = s.stock.slots ∧ (setRequest n r s).stock.dispatched = s.stock.dispatched := by
  simp only [setRequest]
  split <;> exact ⟨rfl, rfl⟩

/-- A piece being freed leaves the stacks, and the list of the dispatched (R112). -/
theorem startFreeing_stock (n : Nat) (s : State) :
    (startFreeing n s).stock.slots = s.stock.slots ∧
    (∀ p, s.piece? n = some p → n ∉ (startFreeing n s).stock.dispatched) := by
  simp only [startFreeing]
  split
  · exact ⟨rfl, fun _ _ => by simp⟩
  · next absent => exact ⟨rfl, fun p piece => nomatch absent.symm.trans piece⟩

theorem slot?_of_slots {s t : State} (h : t.stock.slots = s.stock.slots) (n : Nat) : t.slot? n = s.slot? n := by
  simp only [State.slot?, h]

theorem piece?_of_pieces {s t : State} (h : t.stock.pieces = s.stock.pieces) (n : Nat) : t.piece? n = s.piece? n := by
  simp only [State.piece?, h]

theorem slot?_setSlot_same {s : State} {n : Nat} {x : Slot} (slot : s.slot? n = some x) (y : Slot) :
    (s.setSlot n y).slot? n = some y := by
  simp only [State.slot?] at slot
  split at slot
  · cases slot
  · next there =>
    obtain ⟨within, _⟩ := List.getElem?_eq_some_iff.1 slot
    simp [State.slot?, State.setSlot, there, within]

/-! ### How a request is judged (R113) -/

/-- The request word of a piece that is not being asked for is judged by whether the request is legal (R113). -/
theorem pieceVerdict_code {s : State} {n : Nat} {p : Piece} (piece : s.piece? n = some p) (idle : p.request = none)
    (code : PieceCode) : s.pieceVerdict n code.toNat = if s.pieceLegal n code then .none else .state := by
  cases code <;> simp [State.pieceVerdict, piece, idle, PieceCode.ofNat?, PieceCode.toNat]

theorem pieceLegal_free {s : State} {n : Nat} {p : Piece} (piece : s.piece? n = some p) :
    s.pieceLegal n .free = decide (p.state = .dispatched) := by
  simp only [State.pieceLegal, piece]

/-- Where a SCRAP is not legal (R113). -/
theorem pieceLegal_scrap_false {s : State} {n : Nat} {p : Piece} (piece : s.piece? n = some p)
    (h : p.claim ≠ 0 ∨ p.state ∉ [.inBed, .inStock] ∨ ∃ x, p.state = .inStock ∧ s.slot? p.slot = some x ∧
      (x.stack.getLast? ≠ some n ∨ (s.testSlot x x.stack.dropLast).passed = false)) : s.pieceLegal n .scrap = false := by
  simp only [State.pieceLegal, piece]
  rcases h with claimed | elsewhere | ⟨x, stock, slot, top | fails⟩
  · simp [claimed]
  · cases state : p.state <;> simp_all
  · simp [stock, slot, top]
  · simp [stock, slot, fails]

/-- The Stock Unit's answer to a write of the request word (R29, R113). -/
theorem ownerAnswer_piece {s : State} {n : Nat} {p : Piece} (piece : s.piece? n = some p) (idle : p.request = none)
    (addr : Nat) (code : PieceCode) :
    let j : JudgedWord := ⟨addr, ⟨.piece, n - 1, 9⟩, .ofCount code.toNat, true⟩
    s.ownerAnswer [j] j = if s.pieceLegal n code then .request (.piece n code) else .refuse .state := by
  have there : n - 1 + 1 = n := Nat.succ_pred_eq_of_ne_zero (by rintro rfl; simp [State.piece?] at piece)
  have value : (Word.ofCount code.toNat).toNat = code.toNat := by cases code <;> rfl
  have event : PieceCode.ofNat? code.toNat = some code := by cases code <;> rfl
  simp only [State.ownerAnswer, alarmAt, State.pieceWord, if_true, there, value, event, pieceVerdict_code piece idle, Option.map_some]
  split <;> rfl

/-! ### The rows (R113, R114; log entry 7) -/

/-- The host writes a request to the request word of a piece. -/
def pieceRow (n : Nat) (code : PieceCode) (s : State) : State := writeRecord .piece (n - 1) 9 [.ofCount code.toNat] s

theorem exec_scrap {n : Nat} (there : n ≠ 0) (s : State) : exec (.scrap n) s = .next (finish (pieceRow n .scrap s)) := by
  simp only [exec, execScrap, answer, if_neg there]
  rfl

theorem exec_free {n : Nat} (there : n ≠ 0) (s : State) : exec (.free n) s = .next (finish (pieceRow n .free s)) := by
  simp only [exec, execFree, answer, if_neg there]
  rfl

/-- A request that is not legal is refused with STATE, and changes nothing (R113). -/
theorem pieceRow_refused {s : State} {n addr : Nat} {p : Piece} {code : PieceCode} (calm : s.Calm)
    (lies : s.WordLies .piece (n - 1) 9 addr) (piece : s.piece? n = some p) (idle : p.request = none)
    (illegal : s.pieceLegal n code = false) :
    let u := pieceRow n code s
    s.SettledAs u ∧ u.host.replies = [⟨.refused, []⟩] ∧ u.path.refusal = ⟨addr, .state, s.dir.worksTime⟩ :=
  writeRecord_refused calm lies rfl ((ownerAnswer_piece piece idle addr code).trans (by simp [illegal]))

/-- A calm part in which the write of a piece request is done at memory. -/
def State.pieceWritten (s : State) (n addr : Nat) (code : PieceCode) : State :=
  s.written addr (fullWords [.ofCount code.toNat]) [.piece n code]

/-- A calm part whose piece request has been judged again and accepted, before its result group is handed (R114). -/
def State.pieceAccepted (s : State) (n addr : Nat) (code : PieceCode) : State :=
  (setRequest n (some ⟨code, .waitingSlot, .accepted⟩) (judgePiece n code (s.pieceWritten n addr code)).1).answeredDone

/-- A legal request is handed, judged again, and accepted (R114). -/
theorem pieceRow_legal {s : State} {n addr : Nat} {p : Piece} {code : PieceCode} (calm : s.Calm)
    (lies : s.WordLies .piece (n - 1) 9 addr) (piece : s.piece? n = some p) (idle : p.request = none)
    (legal : s.pieceLegal n code = true) (accepted : (judgePiece n code (s.pieceWritten n addr code)).2 = .accepted) :
    pieceRow n code s = handJob (.pieceResult n) (s.pieceAccepted n addr code) := by
  have answer : s.ownerAnswer [⟨addr, ⟨.piece, n - 1, 9⟩, .ofCount code.toNat, true⟩]
      ⟨addr, ⟨.piece, n - 1, 9⟩, .ofCount code.toNat, true⟩ = .request (.piece n code) :=
    (ownerAnswer_piece piece idle addr code).trans (by simp [legal])
  rw [pieceRow, request_calm s .piece (n - 1) 9 addr _ _ calm lies rfl answer (fun t => by simp [updateCopy])]
  change (piecePosted n code false (s.pieceWritten n addr code)).answeredDone = _
  simp only [piecePosted, Bool.false_eq_true, if_false, accepted]
  rfl

theorem pieceAccepted_slotsFree {s : State} (calm : s.Calm) (n addr : Nat) (code : PieceCode) :
    (s.pieceAccepted n addr code).SlotsFree := by
  obtain ⟨running, pend, ⟨_, _, _, current, queue, answered, _, outbox, _, wait⟩, _, runway⟩ := calm
  have written : State.SlotsFree { s.pieceWritten n addr code with host := ⟨none, [], [⟨.done, []⟩]⟩ } :=
    { up := rfl, queue := congrArg (List.filter OwnItem.isGroup) queue, current := current, answered := answered,
      wait := wait, outbox := outbox, running := running, pend := pend, runway := runway }
  exact written.congr rfl (by simp [State.pieceAccepted, State.answeredDone]) (by simp [State.pieceAccepted, State.answeredDone])
    (by simp [State.pieceAccepted, State.answeredDone]) (by simp [State.pieceAccepted, State.answeredDone])

/-- A piece's copies with a request that has been accepted, at a stage of its course (R114). -/
def Piece.accepted (p : Piece) (code : PieceCode) (stage : PieceStage) : Piece := { p with request := some ⟨code, stage, .accepted⟩ }

/-! ### The result group (R114) -/

/-- A request's result group has at most the piece's record and the record of what the piece leaves (R114). -/
theorem pieceResultGroup_spans {s : State} {n : Nat} {p : Piece} {r : PieceRequest} (piece : s.piece? n = some p)
    (request : p.request = some r) : ∃ spans c, (pieceResultGroup n s).2 = some (spans, c) ∧ spans.length ≤ 6 := by
  have left : (scrapSpans n r.code p s).2.length ≤ 1 := by
    simp only [scrapSpans, State.slotSpan]
    (repeat' split) <;> simp
  simp only [pieceResultGroup, piece, request]
  split
  · exact ⟨_, _, rfl, by simp only [List.length_cons]; omega⟩
  · exact ⟨_, _, rfl, by simp⟩

/-- A piece request's result, its event handed with the slots free, has its group handed within the command (R38, R114). -/
theorem finish_pieceResult {s : State} {n : Nat} {p : Piece} {r : PieceRequest} (free : s.SlotsFree) (piece : s.piece? n = some p)
    (request : p.request = some r) : (pieceResultGroup n s).1.SettledAs (finish (handJob (.pieceResult n) s)) := by
  have before : (handJob (.pieceResult n) s).withPath { (handJob (.pieceResult n) s).path with outbox := [] } = s := by
    have path : { s.path with outbox := [] } = s.path := by rw [← free.outbox]
    change ({ s with path := { s.path with outbox := [] } } : State) = s
    rw [path]
  obtain ⟨spans, c, formed, few⟩ := pieceResultGroup_spans piece request
  refine finish_admitted (.pieceResult n) _ _ spans c ?_ ?_ ?_ ?_ (fun _ => rfl) ?_ ?_
  · simp only [handJob, free.outbox, List.nil_append]
  · rw [before, ← formed]
    rfl
  · rw [before]
    exact admissible_of_slotsFree free _ spans few
  · rw [before]
    exact meetsTaking_of_not_waiting _ _ (fun u e => nomatch free.up.symm.trans e)
  · rw [(pieceResultGroup_keeps n s).2.2.2.1]
    exact free.outbox
  · exact runwayCalm_congr (by simp) (by simp) free.runway

theorem bedSpan_stock (b : Fin 24) (s : State) : (bedSpan b s).1.stock = s.stock := by
  simp only [bedSpan]
  split <;> simp

/-- The span of a bed that a departure has emptied makes a DETENSIONED bed EMPTY (R18). -/
theorem bedSpan_bed (b : Fin 24) (s : State) :
    (bedSpan b s).1.bedUnit b = { s.bedUnit b with
      state := if (s.bedUnit b).state = .detensioned ∧ (s.bedUnit b).inBed = [] then .empty else (s.bedUnit b).state } := by
  by_cases emptied : (s.bedUnit b).state = .detensioned ∧ (s.bedUnit b).inBed = []
  · simp only [bedSpan, if_pos emptied]
    rw [(owners_of_beds (s := setBedState b .empty s) (by simp) b).1, (setBedState_bed b .empty s).1]
  · simp only [bedSpan, if_neg emptied]

theorem scrapSpans_inBed {n : Nat} {p : Piece} {b : Fin 24} {s : State} (inBed : p.state = .inBed) (origin : p.origin = some b) :
    scrapSpans n .scrap p s = ((bedSpan b s).1, [(bedSpan b s).2]) := by
  simp only [scrapSpans, inBed, origin]

theorem scrapSpans_inStock {n : Nat} {p : Piece} {x : Slot} {s : State} (inStock : p.state = .inStock)
    (slot : s.slot? p.slot = some x) :
    (scrapSpans n .scrap p s).1 = s.setSlot p.slot { x with stack := takenOff n x.stack } := by
  simp only [scrapSpans, inStock, slot]

theorem scrapSpans_pieces (n : Nat) (code : PieceCode) (p : Piece) (s : State) :
    (scrapSpans n code p s).1.stock.pieces = s.stock.pieces := by
  simp only [scrapSpans]
  (repeat' split) <;> first | rfl | rw [bedSpan_stock]

/-- The group of an accepted request: the piece is being freed, and lies on no stack and among no dispatched pieces (R112, R114). -/
theorem pieceResultGroup_accepted {s : State} {n : Nat} {p : Piece} {code : PieceCode} {stage : PieceStage}
    (piece : s.piece? n = some p) (request : p.request = some ⟨code, stage, .accepted⟩) :
    let v := (pieceResultGroup n s).1
    v.piece? n = some (p.accepted code .resultInFlight).freeing ∧
    v.stock.slots = (scrapSpans n code p s).1.stock.slots ∧ v.beds = (scrapSpans n code p s).1.beds ∧
    n ∉ v.stock.dispatched := by
  intro v
  let left := (scrapSpans n code p s).1
  let asked := setRequest n (some ⟨code, .resultInFlight, .accepted⟩) left
  have group : v = startFreeing n asked := by
    simp only [v, pieceResultGroup, piece, request, if_true]
    rfl
  have copy : asked.piece? n = some (p.accepted code .resultInFlight) := by
    rw [piece?_setRequest, if_pos rfl, piece?_of_pieces (scrapSpans_pieces n code p s), piece]
    rfl
  obtain ⟨slots, dispatched⟩ := startFreeing_stock n asked
  rw [group]
  refine ⟨by rw [piece?_startFreeing, if_pos rfl, copy]; rfl, ?_, by simp [asked, left], dispatched _ copy⟩
  rw [slots]
  simp [asked, left]

/-! ### The rows of a legal request (R114) -/

/-- A calm part takes a legal request: the piece is being freed, and leaves the list of the dispatched (R112, R114). -/
theorem pieceRow_accepted {s : State} {n addr : Nat} {p : Piece} {code : PieceCode} (calm : s.Calm)
    (lies : s.WordLies .piece (n - 1) 9 addr) (piece : s.piece? n = some p) (idle : p.request = none)
    (legal : s.pieceLegal n code = true) (accepted : (judgePiece n code (s.pieceWritten n addr code)).2 = .accepted) :
    let t := finish (pieceRow n code s)
    let left := (scrapSpans n code (p.accepted code .waitingSlot) (s.pieceAccepted n addr code)).1
    t.piece? n = some (p.accepted code .resultInFlight).freeing ∧
      t.stock.slots = left.stock.slots ∧ t.beds = left.beds ∧ n ∉ t.stock.dispatched := by
  intro t left
  have copy : (s.pieceAccepted n addr code).piece? n = some (p.accepted code .waitingSlot) := by
    have judged : (judgePiece n code (s.pieceWritten n addr code)).1.piece? n = some p :=
      (piece?_of_stock (s := s.pieceWritten n addr code) (by simp) n).trans piece
    have asked := piece?_setRequest (judgePiece n code (s.pieceWritten n addr code)).1 n n (some ⟨code, .waitingSlot, .accepted⟩)
    rw [if_pos rfl, judged] at asked
    exact asked
  have settled := finish_pieceResult (pieceAccepted_slotsFree calm n addr code) copy rfl
  rw [← pieceRow_legal calm lies piece idle legal accepted] at settled
  obtain ⟨beds, _, stock⟩ := settledAs_owners settled
  obtain ⟨freeing, slots, leaves, dispatched⟩ := pieceResultGroup_accepted copy rfl
  simp only [t, piece?_of_stock stock, stock, beds]
  exact ⟨freeing, slots, leaves, dispatched⟩

/-- A request for a piece that is not IN_BED is accepted if it is legal (R114). -/
theorem judgePiece_elsewhere {s : State} {n : Nat} {p : Piece} {code : PieceCode} (piece : s.piece? n = some p)
    (elsewhere : p.state ≠ .inBed) (legal : s.pieceLegal n code = true) : judgePiece n code s = (s, .accepted) := by
  simp [judgePiece, legal, State.lieInBed, piece, elsewhere]

/-- A SCRAP of a piece IN_BED takes it off the list of its bed (R18, R114). -/
theorem judgePiece_inBed {s : State} {n : Nat} {p : Piece} {b : Fin 24} (piece : s.piece? n = some p) (lies : p.state = .inBed)
    (origin : p.origin = some b) (listed : n ∈ (s.bedUnit b).inBed) (legal : s.pieceLegal n .scrap = true) :
    judgePiece n .scrap s =
      (s.setBedUnit b { s.bedUnit b with inBed := (s.bedUnit b).inBed.filter (fun m => decide (m ≠ n)) }, .accepted) := by
  simp [judgePiece, legal, State.lieInBed, piece, lies, leaveBed, origin, listed]

theorem origin_of_bed {p : Piece} {b : Fin 24} (h : p.bed = b.val + 1) : p.origin = some b := by
  simp [Piece.origin, h, fin?]

/-- SCRAP of the top piece of a stack whose claim list passes over the stack without it (R113, R114). -/
theorem scrap_row_stock {s : State} {n addr : Nat} {p : Piece} {x : Slot} (calm : s.Calm) (lies : s.WordLies .piece (n - 1) 9 addr)
    (piece : s.piece? n = some p) (idle : p.request = none) (stock : p.state = .inStock) (legal : s.pieceLegal n .scrap = true)
    (slot : s.slot? p.slot = some x) (top : x.stack.getLast? = some n) :
    let t := finish (pieceRow n .scrap s)
    t.slot? p.slot = some { x with stack := x.stack.dropLast } ∧
      t.piece? n = some (p.accepted .scrap .resultInFlight).freeing := by
  intro t
  have judged : judgePiece n .scrap (s.pieceWritten n addr .scrap) = (s.pieceWritten n addr .scrap, .accepted) :=
    judgePiece_elsewhere piece (by rw [stock]; nofun) legal
  obtain ⟨freeing, slots, _⟩ := pieceRow_accepted calm lies piece idle legal (by rw [judged])
  have still : (s.pieceAccepted n addr .scrap).slot? p.slot = some x :=
    (slot?_of_slots (by simp [State.pieceAccepted, State.answeredDone, State.pieceWritten, State.written]) _).trans slot
  refine ⟨?_, freeing⟩
  rw [slot?_of_slots slots, scrapSpans_inStock (p := p.accepted .scrap .waitingSlot) stock still, takenOff_top n _ top]
  exact slot?_setSlot_same still _

/-- SCRAP of a piece that lies in its bed (R18, R113, R114). -/
theorem scrap_row_bed {s : State} {n addr : Nat} {p : Piece} {b : Fin 24} (calm : s.Calm) (lies : s.WordLies .piece (n - 1) 9 addr)
    (piece : s.piece? n = some p) (idle : p.request = none) (inBed : p.state = .inBed) (legal : s.pieceLegal n .scrap = true)
    (bed : p.bed = b.val + 1) (listed : n ∈ (s.bedUnit b).inBed) :
    let t := finish (pieceRow n .scrap s)
    let left := (s.bedUnit b).inBed.filter (fun m => decide (m ≠ n))
    t.bedUnit b = { s.bedUnit b with
      inBed := left
      state := if (s.bedUnit b).state = .detensioned ∧ left = [] then .empty else (s.bedUnit b).state } ∧
      t.piece? n = some (p.accepted .scrap .resultInFlight).freeing := by
  intro t left
  have judged := judgePiece_inBed (s := s.pieceWritten n addr .scrap) piece inBed (origin_of_bed bed) listed legal
  obtain ⟨freeing, _, beds, _⟩ := pieceRow_accepted calm lies piece idle legal (by rw [judged])
  have gone : (s.pieceAccepted n addr .scrap).bedUnit b = { s.bedUnit b with inBed := left } := by
    rw [(owners_of_beds (s := (judgePiece n .scrap (s.pieceWritten n addr .scrap)).1)
      (by simp [State.pieceAccepted, State.answeredDone]) b).1, judged]
    simp only [bedUnit_setBedUnit, if_true]
    rfl
  refine ⟨?_, freeing⟩
  rw [(owners_of_beds beds b).1, scrapSpans_inBed (p := p.accepted .scrap .waitingSlot) inBed (origin_of_bed bed), bedSpan_bed, gone]

/-! ### The completion (R112, R114) -/

/-- The completion ends the request: an accepted one's piece is freed, and any other result is posted (R114). -/
theorem pieceResultDone_eq {s : State} {n : Nat} {p : Piece} {r : PieceRequest} (piece : s.piece? n = some p)
    (request : p.request = some r) :
    pieceResultDone n s = if r.result = .accepted then pieceFreed n (setRequest n none s)
      else post .pieceResult .piece n (detail2 r.code.toNat r.result.toNat) (setRequest n none s) := by
  simp only [pieceResultDone, piece, request]

theorem detail2_pieceResult (code : PieceCode) (result : Code) :
    detail2 code.toNat result.toNat = Word.ofCount (code.toNat + 65536 * result.toNat) := by
  have small_code : code.toNat % 65536 = code.toNat := by cases code <;> rfl
  have small_result : result.toNat % 65536 = result.toNat := by cases result <;> rfl
  rw [detail2, small_code, small_result]

theorem setRequest_notices (n : Nat) (r : Option PieceRequest) (s : State) : (setRequest n r s).notices = s.notices := by
  simp only [setRequest]
  split <;> simp

/-- The completion of an accepted request's group: the piece is FREE, counted, and no longer a use of its mix (R19, R112). -/
theorem pieceResultDone_accepted {s : State} {n : Nat} {p : Piece} {r : PieceRequest} (piece : s.piece? n = some p)
    (request : p.request = some r) (accepted : r.result = .accepted) :
    let u := pieceResultDone n s
    u.piece? n = some { p with state := .free, ready := false, request := none } ∧ u.freeCount = s.freeCount + 1 ∧
      u.notices = s.notices ∧
      ∀ m, 1 ≤ m → m ≤ 16 → (u.mix m).useCount = (s.mix m).useCount - (if p.mix = m then 1 else 0) := by
  have ended : (setRequest n none s).piece? n = some { p with request := none } := by
    rw [piece?_setRequest, if_pos rfl, piece]
    rfl
  obtain ⟨count, use⟩ := pieceFreed_counts ended
  intro u
  simp only [u, pieceResultDone_eq piece request, if_pos accepted]
  refine ⟨?_, by simpa using count, (pieceFreed_notices n _).trans (setRequest_notices n none s), fun m low high => ?_⟩
  · rw [piece?_pieceFreed, if_pos rfl, ended]
    rfl
  · rw [use m low high, mix_of_mixes (s := s) (by simp)]

/-- The completion of any other result's group: the request ends, and its result is posted (R114; log entry 20). -/
theorem pieceResultDone_refused {s : State} {n : Nat} {p : Piece} {r : PieceRequest} (piece : s.piece? n = some p)
    (request : p.request = some r) (refused : r.result ≠ .accepted) :
    let u := pieceResultDone n s
    u.piece? n = some { p with request := none } ∧ u.freeCount = s.freeCount ∧ u.mixes = s.mixes ∧
      u.notices = s.notices.place s.running
        ⟨.pieceResult, .piece, n, Word.ofCount (r.code.toNat + 65536 * r.result.toNat), s.dir.worksTime⟩ := by
  intro u
  simp only [u, pieceResultDone_eq piece request, if_neg refused]
  refine ⟨?_, by simp, by simp, ?_⟩
  · rw [piece?_of_stock (s := setRequest n none s) (by simp), piece?_setRequest, if_pos rfl, piece]
    rfl
  · simp [post, State.running, setRequest_notices, detail2_pieceResult]

theorem exec_pieceResultDone {s : State} {g : Group} {rest : List Group} {n : Nat} (answered : s.path.answered = g :: rest)
    (completion : g.completion = .pieceResult n) (wait : s.path.slotWait = []) :
    let u := pieceResultDone n (s.withPath { s.path with answered := rest })
    exec .commitGroupComplete s = .next (finish u) ∧ u.path.answered = rest := by
  intro u
  have path : u.path = { s.path with answered := rest } := by
    simp only [u, pieceResultDone_keeps]
    rfl
  exact ⟨exec_groupComplete answered (by rw [completion]; nofun) (by rw [completion]; rfl) (by rw [path, wait]), by rw [path]⟩

/-- Settles O46: the claim test, the completion of a piece request's group, and the rows of a calm part. -/
theorem scrapAndFreeFreeThePiece : Obligations.ScrapAndFreeFreeThePiece := by
  unfold Obligations.ScrapAndFreeFreeThePiece
  refine ⟨fun len max stack peak =>
      ⟨claimTest_nil _ _ _, fun c rest => ⟨claimTest_pick _ _ _ _ c rest, claimTest_place _ _ _ _ c rest⟩⟩,
    fun _ _ _ => rfl, fun s g rest n p r answered wait completion piece request => ?_, fun s n addr p calm lies piece idle => ?_⟩
  · obtain ⟨answers, left⟩ := exec_pieceResultDone answered completion wait
    refine ⟨_, answers, left, ?_⟩
    split
    · next accepted => exact pieceResultDone_accepted (s := s.withPath { s.path with answered := rest }) piece request accepted
    · next refused => exact pieceResultDone_refused (s := s.withPath { s.path with answered := rest }) piece request refused
  · have there : n ≠ 0 := by rintro rfl; simp [State.piece?] at piece
    refine ⟨fun x stock free slot top passes => ?_, fun b inBed free bed listed => ?_, fun dispatched => ?_, fun c refuses => ?_⟩
    · have legal : s.pieceLegal n .scrap = true := by simp [State.pieceLegal, piece, stock, free, slot, top, passes]
      obtain ⟨left, freeing⟩ := scrap_row_stock calm lies piece idle stock legal slot top
      exact ⟨_, _, exec_scrap there s, left, freeing, rfl, rfl, rfl⟩
    · have legal : s.pieceLegal n .scrap = true := by simp [State.pieceLegal, piece, inBed, free]
      obtain ⟨left, freeing⟩ := scrap_row_bed calm lies piece idle inBed legal bed listed
      exact ⟨_, _, exec_scrap there s, by rw [left], freeing, rfl, by rw [left]⟩
    · have legal : s.pieceLegal n .free = true := by simp [pieceLegal_free piece, dispatched]
      have judged : judgePiece n .free (s.pieceWritten n addr .free) = (s.pieceWritten n addr .free, .accepted) :=
        judgePiece_elsewhere piece (by rw [dispatched]; nofun) legal
      obtain ⟨freeing, _, _, gone⟩ := pieceRow_accepted calm lies piece idle legal (by rw [judged])
      exact ⟨_, _, exec_free there s, freeing, rfl, gone⟩
    · have row : ∃ code, exec c s = .next (finish (pieceRow n code s)) ∧ s.pieceLegal n code = false := by
        rcases refuses with ⟨rfl, illegal⟩ | ⟨rfl, elsewhere⟩
        · exact ⟨.scrap, exec_scrap there s, pieceLegal_scrap_false piece illegal⟩
        · exact ⟨.free, exec_free there s, by simp [pieceLegal_free piece, elsewhere]⟩
      obtain ⟨code, answers, illegal⟩ := row
      obtain ⟨settled, replies, refusal⟩ := pieceRow_refused calm lies piece idle illegal
      obtain ⟨beds, _, stock⟩ := settledAs_owners settled
      exact ⟨_, answers, by rw [settled], stock, beds, replies, refusal⟩

end Sys2Proof.Machine
end
